-- ==== Sys2Proof/Word.lean ====
section
/-! DEFINITION. The widths in which the link carries its fields (R186): bytes, two-byte and four-byte fields. -/

namespace Sys2Proof

/-- One byte of a frame (R173). -/
abbrev Byte := BitVec 8

/-- A two-byte field, most significant byte first on the wire (R173). -/
abbrev Half := BitVec 16

/-- A four-byte field, most significant byte first on the wire (R173). -/
abbrev Word := BitVec 32

end Sys2Proof
end

