-- ==== Sys2Proof/Config.lean ====
section
/-! DEFINITION. What the spec fixes once for the part (bounds that several rules share), and the one free value:
what the seconds count becomes at its 32-bit limit, which the spec does not say. -/

namespace Sys2Proof

/-- The greatest depth of any shaft, in mm (R2, R5). -/
def Config.maxDepth : Nat := 1600000

/-- Every ceiling the part is given saturates here, in mm/s (R6, R22, R58). -/
def Config.maxCeiling : Nat := 20000

/-- A reported load above this saturates, in kg (R24). -/
def Config.maxLoad : Nat := 100000

/-- The travel accumulator saturates here, in mm (R30). -/
def Config.maxTravel : Nat := 16777215

/-- The least length of a zone, in mm (R9). -/
def Config.minZone : Nat := 2000

/-- The empty threshold of a weighing, in kg (R150). -/
def Config.emptyThreshold : Nat := 2500

/-- The duration of a move record saturates here, in tenths of a second (R167). -/
def Config.maxDuration : Nat := 65535

/-- The capacity of the move record queue (R166). -/
def Config.recordCapacity : Nat := 12

/-- The seconds count is held in 32 bits (R157). -/
def Config.secondsLimit : Nat := 4294967296

/-- FREE VALUE (log 9). What the seconds count holds after the tick that finds it at its 32-bit limit: R157 names the
limit and does not say what happens there. No body, so nothing can be proved of the value. -/
opaque Config.secondsPastLimit : BitVec 32

end Sys2Proof
end

