-- ==== Sys2Proof/Syntax.lean ====
section
/-! DEFINITION. The commands the part takes: one constructor for each row of the opcode table, with the operands that
R186 lays out. A wire field keeps its width; what a code stands for is read in Machine/Operands.lean. -/

namespace Sys2Proof

/-- The two serial ports (chapter 11). -/
inductive Port where
  | uplink
  | field
deriving DecidableEq, Repr

/-- A frame as it stands on a port after its start delimiter (R173). Its length byte is the payload's length. -/
structure Frame where
  address : Byte
  kind    : Byte
  payload : List Byte
  check   : Half
deriving DecidableEq, Repr

/-- Hoists H1 to H6, numbered from 0. -/
abbrev HoistId := Fin 6

/-- Landings L1 to L16, numbered from 0. -/
abbrev LandingId := Fin 16

/-- Masses M1 to M96, numbered from 0. -/
abbrev MassId := Fin 96

/-- Groups G1 to G4, numbered from 0. -/
abbrev GroupId := Fin 4

/-- The levels of the six station-address straps (R179). -/
abbrev Straps := BitVec 6

/-- What every ORDER frame carries before its parameters, apart from its code (R186): the station address it is sent to
and the tag its ANSWER echoes. -/
structure OrderHead where
  address : Byte
  tag     : Byte
deriving DecidableEq, Repr

/-- The 13 payload bytes of a REPORT, field by field (R186). -/
structure ReportWire where
  drumDepth : Word
  speed     : Half
  mode      : Byte
  flags     : Byte
  load      : Word
  fault     : Byte
deriving DecidableEq, Repr

/-- The payload of a SHUTTLE_REPORT (R186). The survey count is the list's length. -/
structure ShuttleWire where
  state  : Byte
  slot   : Byte
  tag    : Byte
  survey : List Byte
deriving DecidableEq, Repr

/-- The 16 bytes of HOIST_CONFIG that follow the hoist (R186). -/
structure HoistParams where
  compartment    : Byte
  rank           : Byte
  driveStation   : Byte
  tare           : Half
  height         : Half
  sheaveOffset   : Byte
  ropeCoeff      : Byte
  stretchCap     : Half
  decel          : Half
  defaultCeiling : Half
  precedence     : Byte
deriving DecidableEq, Repr

/-- The eleven fields of TIMER_WRITE in order (R183, R186). -/
structure TimerParams where
  reportLimit      : Half
  staleLimit       : Half
  engageLimit      : Byte
  arrivalTolerance : Half
  overspeedMargin  : Half
  dockingWindow    : Byte
  latchLimit       : Byte
  transferLimit    : Half
  surveyLimit      : Byte
  proofLimit       : Byte
  weightTolerance  : Byte
deriving DecidableEq, Repr

/-- The commands, one for each row of the opcode table. An order carries its address and tag, then its parameters in
the order and widths of R186. A command that reads the straps carries the level of the six pins at that moment. -/
inductive Instr where
  | powerOn (straps : Straps)
  | resetInputAssert
  | resetInputRelease (straps : Straps)
  | partialFrameDiscard (port : Port)
  | frameDropped (port : Port) (f : Frame)
  | framePassThrough (port : Port) (f : Frame)
  | demand (address mode : Byte) (velocity : Half)
  | report (address : Byte) (w : ReportWire)
  | shuttleReport (address : Byte) (w : ShuttleWire)
  | handoverTimerExpiry (h : HoistId)
  | surveyTimerExpiry (l : LandingId)
  | reportAgeExpiry (h : HoistId)
  | demandAgeExpiry (h : HoistId)
  | engageTimeout (h : HoistId)
  | parkTimeout (h : HoistId)
  | proofTimerExpiry (h : HoistId)
  | secondTick
  | unknownOrder (o : OrderHead) (code : Byte) (params : List Byte)
  | orderDropped (o : OrderHead) (code : Byte) (params : List Byte)
  | shaftWrite (o : OrderHead) (floor tally : Word) (guard separation : Half)
  | zoneWriteEntry (o : OrderHead) (compartment index : Byte) (upper : Word) (ceiling : Half) (kind landing : Byte)
  | zoneWriteCount (o : OrderHead) (compartment count : Byte)
  | zoneCommit (o : OrderHead) (compartment : Byte)
  | zoneQuery (o : OrderHead) (compartment table index : Byte)
  | landingWrite (o : OrderHead) (landing : Byte) (sill : Word) (slots mode served station : Byte)
  | landingRemove (o : OrderHead) (landing : Byte) (sill : Word) (mode served station : Byte)
  | hoistConfig (o : OrderHead) (hoist : Byte) (p : HoistParams)
  | hoistQuery (o : OrderHead) (hoist : Byte)
  | engage (o : OrderHead) (hoist : Byte)
  | park (o : OrderHead) (hoist : Byte)
  | move (o : OrderHead) (hoist : Byte) (target : Word) (parkOnArrival : Byte)
  | abort (o : OrderHead) (hoist : Byte)
  | resetHoist (o : OrderHead) (hoist : Byte)
  | ceiling (o : OrderHead) (hoist : Byte) (value : Half)
  | groupWrite (o : OrderHead) (group set : Byte)
  | groupCeiling (o : OrderHead) (group : Byte) (value : Half)
  | groupStop (o : OrderHead) (group : Byte)
  | allStop (o : OrderHead)
  | transfer (o : OrderHead) (hoist kind selector mass : Byte)
  | abortTransfer (o : OrderHead) (hoist : Byte)
  | resolve (o : OrderHead) (hoist outcome : Byte)
  | blockSlot (o : OrderHead) (landing slot : Byte)
  | unblockSlot (o : OrderHead) (landing slot : Byte)
  | landingQuery (o : OrderHead) (landing : Byte)
  | declareMass (o : OrderHead) (mass : Byte) (nominal : Half) (kind place slot : Byte)
  | removeMass (o : OrderHead) (mass : Byte)
  | verify (o : OrderHead) (landing : Byte)
  | releaseScope (o : OrderHead) (compartment : Byte)
  | admitScope (o : OrderHead) (compartment : Byte)
  | massQuery (o : OrderHead) (mass : Byte)
  | tallyQuery (o : OrderHead)
  | prove (o : OrderHead) (hoist : Byte)
  | proofWrite (o : OrderHead) (hours ceiling : Half)
  | maskWrite (o : OrderHead) (set : Half)
  | scopeOptions (o : OrderHead) (compartment scope stale : Byte)
  | status (o : OrderHead)
  | readRecord (o : OrderHead)
  | logControl (o : OrderHead) (setting : Byte)
  | timerWrite (o : OrderHead) (p : TimerParams)
  | restart (o : OrderHead) (straps : Straps)
deriving DecidableEq, Repr

end Sys2Proof
end

