-- ==== Sys2Proof/Machine/Bytes.lean ====
section
/-! DEFINITION. Byte order (R173) and the frame check (R174). -/

namespace Sys2Proof.Machine

/-- A number as one byte, its low eight bits. -/
def byte (n : Nat) : Byte := BitVec.ofNat 8 n

/-- A two-byte field, most significant byte first (R173). -/
def be16 (w : Half) : List Byte := [w.extractLsb' 8 8, w.extractLsb' 0 8]

/-- A four-byte field, most significant byte first (R173). -/
def be32 (w : Word) : List Byte := [w.extractLsb' 24 8, w.extractLsb' 16 8, w.extractLsb' 8 8, w.extractLsb' 0 8]

/-- A number in one, two, three and four bytes, most significant first (R173, R186). -/
def num8 (n : Nat) : List Byte := [byte n]
def num16 (n : Nat) : List Byte := be16 (BitVec.ofNat 16 n)
def num24 (n : Nat) : List Byte := [byte (n / 65536), byte (n / 256), byte n]
def num32 (n : Nat) : List Byte := be32 (BitVec.ofNat 32 n)

/-- A signed two-byte field in two's complement (R173). -/
def int16 (v : Int) : List Byte := be16 (BitVec.ofInt 16 v)

/-- A bit as a byte, 0 or 1 (R186). -/
def bit8 (b : Bool) : List Byte := [if b then 1 else 0]

/-- Two bytes as the field they carry (R173). -/
def read16 (a b : Byte) : Half := a ++ b

/-- Four bytes as the field they carry (R173). -/
def read32 (a b c d : Byte) : Word := a ++ b ++ c ++ d

/-- One bit shifted into the check register: x^16 + x^12 + x^5 + 1 (R174). -/
def crcBit (r : Half) (b : Bool) : Half :=
  if r.msb ^^ b then (r <<< 1) ^^^ 0x1021 else r <<< 1

/-- One byte of the check, most significant bit first (R174). -/
def crcByte (r : Half) (b : Byte) : Half :=
  [7, 6, 5, 4, 3, 2, 1, 0].foldl (fun r i => crcBit r (b.getLsbD i)) r

/-- The check over a list of bytes, from all ones, with no final inversion (R174). -/
def crc (bytes : List Byte) : Half := bytes.foldl crcByte 0xFFFF

/-- The bytes of a frame that its check covers: address, kind, length and payload (R174). -/
def checkedBytes (address kind : Byte) (payload : List Byte) : List Byte :=
  address :: kind :: byte payload.length :: payload

/-- The check the part computes over a frame's bytes (R174). -/
def frameCheck (address kind : Byte) (payload : List Byte) : Half := crc (checkedBytes address kind payload)

/-- A frame the part originates or forwards with a field altered: it carries a check computed over the bytes as sent
(R174). -/
def makeFrame (address kind : Byte) (payload : List Byte) : Frame :=
  ⟨address, kind, payload, frameCheck address kind payload⟩

/-- The received check equals the check computed over the frame's bytes (R174). -/
def checkHolds (f : Frame) : Bool := f.check == frameCheck f.address f.kind f.payload

/-- The frame as bytes on the wire after its start delimiter (R173). -/
def frameBytes (f : Frame) : List Byte := checkedBytes f.address f.kind f.payload ++ be16 f.check

/-- Kinds of frames (R175, R186). -/
def kindDemand : Byte := 0x21
def kindReport : Byte := 0x22
def kindProofReq : Byte := 0x23
def kindShuttleReq : Byte := 0x31
def kindShuttleReport : Byte := 0x32
def kindOrder : Byte := 0x41
def kindAnswer : Byte := 0x42

/-- The broadcast address (R173). -/
def broadcast : Byte := 63

end Sys2Proof.Machine
end

