-- ==== Sys2Proof/Machine/State.lean ====
section
/-! DEFINITION. Everything the spec gives the part, as plain data, block by block, and the state at power-on.
Depths are mm, velocities mm/s, masses kg, times ms of the time base (00, Units and signs). A timer is the time of its
expiry, or none while it is stopped. -/

namespace Sys2Proof.Machine

/-! ## The shaft map (01) -/

inductive Compartment where
  | a
  | b
deriving DecidableEq, Repr

/-- R1. -/
inductive CompartmentState where
  | unconfigured
  | supervised
  | released
deriving DecidableEq, Repr

/-- R5. The landing is present for kind LANDING only. -/
inductive ZoneKind where
  | plain
  | landing (l : LandingId)
  | barred
deriving DecidableEq, Repr

/-- One entry of a zone table (R5). -/
structure ZoneEntry where
  upper   : Nat
  ceiling : Nat
  kind    : ZoneKind
deriving DecidableEq, Repr

/-- The entry at power-on (R5). -/
def ZoneEntry.blank : ZoneEntry := ⟨0, 0, .plain⟩

/-- A zone table: the first `count` of 48 entries form it (R5). -/
structure ZoneTable where
  count   : Nat
  entries : Vector ZoneEntry 48
deriving DecidableEq, Repr

def ZoneTable.blank : ZoneTable := ⟨0, Vector.replicate 48 .blank⟩

/-- R103, R111. -/
inductive TripScope where
  | isolate
  | stopNeighbours
deriving DecidableEq, Repr

/-- R51, R103. -/
inductive StaleAction where
  | stop
  | trip
deriving DecidableEq, Repr

/-- What the part holds for one compartment (R1, R5, R103). -/
structure CompartmentRec where
  state       : CompartmentState
  committed   : ZoneTable
  shadow      : ZoneTable
  tripScope   : TripScope
  staleAction : StaleAction
deriving DecidableEq, Repr

/-- R1, R5, R103, R113: at power-on. -/
def CompartmentRec.initial : CompartmentRec := ⟨.unconfigured, .blank, .blank, .isolate, .stop⟩

/-- The shaft-wide settings (R2). -/
structure ShaftSettings where
  floor      : Nat
  tallyBase  : Nat
  guard      : Nat
  separation : Nat
deriving DecidableEq, Repr

/-- R2: at power-on. -/
def ShaftSettings.initial : ShaftSettings := ⟨1600000, 0, 1000, 5000⟩

/-! ## Landings, slots and handovers (01, 07) -/

/-- R15, R121. -/
inductive OrderMode where
  | sequential
  | interleaved
deriving DecidableEq, Repr

/-- R120. -/
inductive SlotState where
  | empty
  | occupied (m : MassId)
  | reserved (m : MassId)
  | unverified (x : Option MassId)
  | blocked (x : Option MassId)
deriving DecidableEq, Repr

/-- A defined landing's record (R15) with its slots and slot pointer (R119). There are N slots, and N is 4 or 8. -/
structure LandingRec where
  sill      : Nat
  orderMode : OrderMode
  servesA   : Bool
  servesB   : Bool
  station   : Nat
  slots     : List SlotState
  pointer   : Nat
deriving DecidableEq, Repr

/-- R123, R125. -/
inductive TransferKind where
  | deposit
  | collect
deriving DecidableEq, Repr

/-- R125. -/
inductive Phase where
  | waiting
  | latching
  | transferring
  | unlatching
  | stuck
deriving DecidableEq, Repr

/-- R125. -/
inductive HandoverOutcome where
  | done
  | failed
  | abandoned
deriving DecidableEq, Repr

/-- A handover record (R125). Its landing is the landing whose queue holds it. -/
structure Handover where
  hoist   : HoistId
  kind    : TransferKind
  slot    : Option Nat
  mass    : Option MassId
  phase   : Phase
  timer   : Option Nat
  outcome : Option HandoverOutcome
  settled : Bool
  waited  : Bool
deriving DecidableEq, Repr

/-- R119. UNKNOWN, or the state of the latest SHUTTLE_REPORT. -/
inductive ShuttleState where
  | unknown
  | idle
  | latched
  | busy
  | done
  | fault
deriving DecidableEq, Repr

/-- R119. A handover is named by its hoist, which has at most one (R125). -/
inductive ShuttleHolder where
  | none
  | handover (h : HoistId)
  | survey
deriving DecidableEq, Repr

/-- What the part holds for one landing (R15, R119, R152). -/
structure Landing where
  record      : Option LandingRec
  queue       : List Handover
  holder      : ShuttleHolder
  shuttle     : ShuttleState
  survey      : Bool
  surveyTimer : Option Nat
deriving DecidableEq, Repr

/-- R15, R119: at power-on. -/
def Landing.initial : Landing := ⟨none, [], .none, .unknown, false, none⟩

/-! ## Hoists (02 to 06, 09) -/

/-- A hoist's configuration (R21). -/
structure HoistConfig where
  compartment    : Compartment
  rank           : Nat
  driveStation   : Nat
  tare           : Nat
  height         : Nat
  sheaveOffset   : Nat
  ropeCoeff      : Nat
  stretchCap     : Nat
  decel          : Nat
  defaultCeiling : Nat
  precedence     : Nat
deriving DecidableEq, Repr

/-- R24. -/
inductive DriveMode where
  | park
  | run
  | invalid
deriving DecidableEq, Repr

/-- R24. -/
inductive Brake where
  | set
  | lifted
deriving DecidableEq, Repr

/-- R24. -/
inductive ProofResult where
  | none
  | pass
  | fail
deriving DecidableEq, Repr

/-- The fields of a hoist's latest REPORT (R24) and the values derived from it (R26 to R29). -/
structure Latest where
  drumDepth    : Nat
  speed        : Int
  mode         : DriveMode
  brake        : Brake
  torqueProven : Bool
  proofResult  : ProofResult
  envWarning   : Bool
  load         : Nat
  fault        : Nat
  ropeLength   : Nat
  suspended    : Nat
  stretch      : Nat
  depth        : Nat
  spanTop      : Nat
deriving DecidableEq, Repr

/-- R31. -/
inductive Freshness where
  | none
  | fresh
  | lapsed
deriving DecidableEq, Repr

/-- The eleven hoist states (R37). -/
inductive HoistState where
  | unconfigured
  | releasedLocal
  | parked
  | proving
  | engaging
  | ready
  | moving
  | stopping
  | docked
  | parking
  | tripped
deriving DecidableEq, Repr

/-- R104 and the table before it. -/
inductive TripCause where
  | overtravel
  | overspeed
  | separation
  | driveFault
  | proofFail
  | reportLoss
  | parkFail
  | stale
deriving DecidableEq, Repr

/-- R36, R56. -/
inductive Carried where
  | none
  | mass (m : MassId)
  | unknownLoad
deriving DecidableEq, Repr

/-- R36. -/
inductive Direction where
  | down
  | up
deriving DecidableEq, Repr

/-- R36, R48. -/
inductive StopReason where
  | stopped
  | stale
deriving DecidableEq, Repr

/-- The move part of a hoist context (R36). -/
structure Move where
  target        : Nat
  direction     : Direction
  parkOnArrival : Bool
  startDepth    : Nat
  startTime     : Nat
  waited        : Bool
  clamped       : Bool
  degraded      : Bool
  stopReason    : Option StopReason
  isOpen        : Bool
deriving DecidableEq, Repr

/-- A run that is not empty: every zone from its top zone to its bottom zone (R62). Zones are numbered from 1. -/
structure Run where
  top    : Nat
  bottom : Nat
deriving DecidableEq, Repr

/-- R82, R96. -/
inductive ClampReason where
  | none
  | envelope
  | saturated
  | state
  | mismatch
deriving DecidableEq, Repr

/-- R157, R159. -/
inductive ProofStatus where
  | current
  | due
  | lapsed
deriving DecidableEq, Repr

/-- What the part holds for one hoist, block by block. -/
structure Hoist where
  /-- R21 -/
  config         : Option HoistConfig
  /-- R24, R26 to R29 -/
  latest         : Option Latest
  /-- R31 -/
  freshness      : Freshness
  /-- R31 -/
  reportTimer    : Option Nat
  /-- R33 -/
  demandTimer    : Option Nat
  /-- R30 -/
  travel         : Nat
  /-- R35 -/
  weighPending   : Bool
  /-- R36, R37 -/
  state          : HoistState
  /-- R36, R53 -/
  tripCause      : Option TripCause
  /-- the MODEL's own: the timer's cause that had fallen due when the hoist last tripped for another, and is still to be
  taken (R109, log 29) -/
  overtaken      : Option TripCause
  /-- R36, R56 -/
  carried        : Carried
  /-- R36, R58 -/
  profileCeiling : Nat
  /-- R36 -/
  engageTimer    : Option Nat
  /-- R36 -/
  move           : Option Move
  /-- R62 -/
  run            : Option Run
  /-- R64; its head is the awaited zone (R65) -/
  extent         : List Nat
  /-- R82 -/
  envDown        : Nat
  /-- R82 -/
  envUp          : Nat
  /-- R82, R92 -/
  refDown        : Nat
  /-- R82, R92 -/
  refUp          : Nat
  /-- R82, R97 -/
  lastVelocity   : Int
  /-- R82, R96 -/
  lastReason     : ClampReason
  /-- R103, R112 -/
  tripLineOpen   : Bool
  /-- R103, R106 -/
  stopAllowance  : Option Nat
  /-- R103 -/
  lastReportTime : Option Nat
  /-- R157 -/
  lastPass       : Option Nat
  /-- R157 -/
  proofStatus    : ProofStatus
  /-- R157 -/
  proofTimer     : Option Nat
deriving DecidableEq, Repr

/-- R21, R30, R31, R33, R35, R36, R62, R64, R82, R103, R157: at power-on. -/
def Hoist.initial : Hoist where
  config := none
  latest := none
  freshness := .none
  reportTimer := none
  demandTimer := none
  travel := 0
  weighPending := false
  state := .unconfigured
  tripCause := none
  overtaken := none
  carried := .none
  profileCeiling := 0
  engageTimer := none
  move := none
  run := none
  extent := []
  envDown := 0
  envUp := 0
  refDown := 0
  refUp := 0
  lastVelocity := 0
  lastReason := .none
  tripLineOpen := true
  stopAllowance := none
  lastReportTime := none
  lastPass := none
  proofStatus := .lapsed
  proofTimer := none

/-! ## Masses (08) -/

/-- A location or expected location (R141). -/
inductive Place where
  | slot (l : LandingId) (i : Nat)
  | hoist (h : HoistId)
deriving DecidableEq, Repr

/-- R141. PLACED has a location, UNCERTAIN may have an expected location. -/
inductive MassStatus where
  | absent
  | placed (p : Place)
  | uncertain (p : Option Place)
deriving DecidableEq, Repr

/-- A mass record (R141). -/
structure Mass where
  status   : MassStatus
  nominal  : Option Nat
  measured : Option Nat
deriving DecidableEq, Repr

/-- R141: at power-on. -/
def Mass.initial : Mass := ⟨.absent, none, none⟩

/-! ## Settings, records, link (10, 11) -/

/-- The eleven settings TIMER_WRITE writes (R183). -/
structure TimerSettings where
  /-- ms -/
  reportLimit      : Nat
  /-- ms -/
  staleLimit       : Nat
  /-- s -/
  engageLimit      : Nat
  /-- mm -/
  arrivalTolerance : Nat
  /-- mm/s -/
  overspeedMargin  : Nat
  /-- mm -/
  dockingWindow    : Nat
  /-- s -/
  latchLimit       : Nat
  /-- s -/
  transferLimit    : Nat
  /-- s -/
  surveyLimit      : Nat
  /-- s -/
  proofLimit       : Nat
  /-- per cent -/
  weightTolerance  : Nat
deriving DecidableEq, Repr

/-- R183: at power-on. -/
def TimerSettings.initial : TimerSettings := ⟨200, 200, 5, 50, 500, 25, 10, 90, 20, 30, 5⟩

/-- R45, R167. -/
inductive MoveOutcome where
  | arrived
  | stopped
  | stale
  | tripped
deriving DecidableEq, Repr

/-- A move record (R167). -/
structure MoveRecord where
  hoist      : HoistId
  outcome    : MoveOutcome
  startDepth : Nat
  endDepth   : Nat
  target     : Nat
  travelled  : Nat
  carried    : Carried
  waited     : Bool
  clamped    : Bool
  degraded   : Bool
  duration   : Nat
deriving DecidableEq, Repr

/-- The link error indicators (R182). -/
structure LinkErrors where
  check  : Bool
  length : Bool
  target : Bool
  order  : Bool
deriving DecidableEq, Repr

/-- R182: at power-on. -/
def LinkErrors.clear : LinkErrors := ⟨false, false, false, false⟩

/-- The part. -/
structure State where
  /-- R2 -/
  shaft           : ShaftSettings
  /-- R1, R5, R103: compartment A -/
  compA           : CompartmentRec
  /-- R1, R5, R103: compartment B -/
  compB           : CompartmentRec
  /-- R15, R119 -/
  landings        : Vector Landing 16
  /-- R21 to R36, R62, R64, R82, R103, R157 -/
  hoists          : Vector Hoist 6
  /-- R141 -/
  masses          : Vector Mass 96
  /-- R57: bit n - 1 for Hn -/
  groups          : Vector (BitVec 6) 4
  /-- R183 -/
  timers          : TimerSettings
  /-- R157, in seconds -/
  proofInterval   : Nat
  /-- R157 -/
  degradedCeiling : Nat
  /-- R114: bit n - 1 for the category of priority n -/
  latched         : BitVec 13
  /-- R115 -/
  mask            : BitVec 13
  /-- R115: the attention output -/
  attention       : Bool
  /-- R166, oldest first -/
  records         : List MoveRecord
  /-- R166 -/
  logging         : Bool
  /-- R166 -/
  overflow        : Bool
  /-- R182 -/
  links           : LinkErrors
  /-- the six strap pins (R179) -/
  strapPins       : Straps
  /-- R179 -/
  strapAddress    : Straps
  /-- the reset input, asserted or not (R179) -/
  resetInput      : Bool
  /-- a frame is in reception on the uplink port (R173, R185) -/
  uplinkReceiving : Bool
  /-- a frame is in reception on the field port (R173, R185) -/
  fieldReceiving  : Bool
  /-- frames given to the ports and not yet sent, in the order in which they were given (R175) -/
  outbox          : List (Port × Frame)
  /-- R157: the seconds count -/
  seconds         : Nat
  /-- the millisecond time base -/
  now             : Nat
  /-- the MODEL's own: the time at which the next second passes (log 8) -/
  nextSecond      : Nat
  /-- the MODEL's own: the commands that wait, first in, first out -/
  pending         : List Instr
deriving DecidableEq, Repr

/-- Reasons a step can stop with a fault. The spec names no condition that stops the part, so there is none. -/
inductive Fault where
deriving DecidableEq, Repr

/-- Reasons a step can be refused. -/
inductive Refusal where
  /-- Raised by `exec`'s arm for a command that has no meaning yet. Safe: nothing is claimed of such a command. -/
  | notModelled (mnemonic : String)
deriving DecidableEq, Repr

/-- The part at power-on (R185), with the straps at the given level; the time base at 0 (log 8). -/
def State.powerOnWith (straps : Straps) : State where
  shaft := .initial
  compA := .initial
  compB := .initial
  landings := Vector.replicate 16 .initial
  hoists := Vector.replicate 6 .initial
  masses := Vector.replicate 96 .initial
  groups := Vector.replicate 4 0
  timers := .initial
  proofInterval := 604800
  degradedCeiling := 2000
  latched := 0
  mask := 0
  attention := false
  records := []
  logging := true
  overflow := false
  links := .clear
  strapPins := straps
  strapAddress := straps
  resetInput := false
  uplinkReceiving := false
  fieldReceiving := false
  outbox := []
  seconds := 0
  now := 0
  nextSecond := 1000
  pending := []

/-- The part right after power-on (R185). DESIGN CHOICE, log 6 (unsafe): the straps read 9, as in the worked example of
chapter 11; the spec leaves them to the plant. -/
def State.reset : State := State.powerOnWith 9

end Sys2Proof.Machine
end

