-- ==== Sys2Proof/Machine/Ops.lean ====
section
/-! DEFINITION. The one way each piece of state is read and written, the frames the part gives to its ports, and the
form in which every command takes effect. -/

namespace Sys2Proof.Machine

/-! ## Reading and writing by name -/

/-- Hoists H1 to H6 in order. -/
def allHoists : List HoistId := [0, 1, 2, 3, 4, 5]

/-- Landings L1 to L16 in order. -/
def allLandings : List LandingId := [0, 1, 2, 3, 4, 5, 6, 7, 8, 9, 10, 11, 12, 13, 14, 15]

def State.hoist (s : State) (h : HoistId) : Hoist := s.hoists[h.val]

def State.setHoist (s : State) (h : HoistId) (r : Hoist) : State := { s with hoists := s.hoists.set h.val r }

def State.modHoist (s : State) (h : HoistId) (f : Hoist → Hoist) : State := s.setHoist h (f (s.hoist h))

def State.landing (s : State) (l : LandingId) : Landing := s.landings[l.val]

def State.setLanding (s : State) (l : LandingId) (r : Landing) : State :=
  { s with landings := s.landings.set l.val r }

def State.modLanding (s : State) (l : LandingId) (f : Landing → Landing) : State := s.setLanding l (f (s.landing l))

def State.mass (s : State) (m : MassId) : Mass := s.masses[m.val]

def State.setMass (s : State) (m : MassId) (r : Mass) : State := { s with masses := s.masses.set m.val r }

def State.modMass (s : State) (m : MassId) (f : Mass → Mass) : State := s.setMass m (f (s.mass m))

def State.group (s : State) (g : GroupId) : BitVec 6 := s.groups[g.val]

def State.setGroup (s : State) (g : GroupId) (x : BitVec 6) : State := { s with groups := s.groups.set g.val x }

def State.comp (s : State) : Compartment → CompartmentRec
  | .a => s.compA
  | .b => s.compB

def State.setComp (s : State) (c : Compartment) (r : CompartmentRec) : State :=
  match c with
  | .a => { s with compA := r }
  | .b => { s with compB := r }

def State.modComp (s : State) (c : Compartment) (f : CompartmentRec → CompartmentRec) : State :=
  s.setComp c (f (s.comp c))

/-- The compartment is SUPERVISED (R1). -/
def State.supervised (s : State) (c : Compartment) : Bool := (s.comp c).state == .supervised

/-! ## What is read off a hoist -/

/-- A hoist whose configuration is present is configured (R21). -/
def Hoist.configured (r : Hoist) : Bool := r.config.isSome

def Hoist.inCompartment (r : Hoist) (c : Compartment) : Bool :=
  match r.config with
  | some k => k.compartment == c
  | none => false

/-- Conveyance depth C (R29); 0 while the part holds no REPORT (log 17). -/
def Hoist.depth (r : Hoist) : Nat :=
  match r.latest with
  | some l => l.depth
  | none => 0

/-- The top of the span (R29); 0 while the part holds no REPORT (log 17). -/
def Hoist.spanTop (r : Hoist) : Nat :=
  match r.latest with
  | some l => l.spanTop
  | none => 0

/-- The speed of the latest REPORT (R24); 0 while the part holds none (log 17). -/
def Hoist.speed (r : Hoist) : Int :=
  match r.latest with
  | some l => l.speed
  | none => 0

/-- Configuration constants (R21); 0 while the hoist is not configured (log 17). -/
def Hoist.height (r : Hoist) : Nat :=
  match r.config with
  | some k => k.height
  | none => 0

def Hoist.decel (r : Hoist) : Nat :=
  match r.config with
  | some k => k.decel
  | none => 0

def Hoist.tare (r : Hoist) : Nat :=
  match r.config with
  | some k => k.tare
  | none => 0

def Hoist.rank (r : Hoist) : Nat :=
  match r.config with
  | some k => k.rank
  | none => 0

def Hoist.precedence (r : Hoist) : Nat :=
  match r.config with
  | some k => k.precedence
  | none => 0

/-- The latest REPORT shows brake LIFTED. -/
def Hoist.brakeLifted (r : Hoist) : Bool :=
  match r.latest with
  | some l => l.brake == .lifted
  | none => false

/-- The hoist has an open move (R36): MOVING or STOPPING (R160). -/
def Hoist.moveOpen (r : Hoist) : Bool :=
  match r.move with
  | some m => m.isOpen
  | none => false

/-- The configured hoists of a compartment, H1 first. -/
def State.hoistsOf (s : State) (c : Compartment) : List HoistId :=
  allHoists.filter fun h => (s.hoist h).inCompartment c

/-- The configured hoist whose drive station has this address (R176, R177). -/
def State.driveAt (s : State) (address : Byte) : Option HoistId :=
  allHoists.find? fun h =>
    match (s.hoist h).config with
    | some k => k.driveStation == address.toNat
    | none => false

/-- A hoist state in which the compartment supervises the hoist (R37). -/
def HoistState.supervised : HoistState → Bool
  | .unconfigured => false
  | .releasedLocal => false
  | .parked => true
  | .proving => true
  | .engaging => true
  | .ready => true
  | .moving => true
  | .stopping => true
  | .docked => true
  | .parking => true
  | .tripped => true

/-- The five demand-watched states (R33). -/
def HoistState.watched : HoistState → Bool
  | .engaging => true
  | .ready => true
  | .moving => true
  | .stopping => true
  | .docked => true
  | .unconfigured => false
  | .releasedLocal => false
  | .parked => false
  | .proving => false
  | .parking => false
  | .tripped => false

/-- The states in which the trip line is open (R112). -/
def HoistState.lineOpen : HoistState → Bool
  | .tripped => true
  | .unconfigured => true
  | .releasedLocal => false
  | .parked => false
  | .proving => false
  | .engaging => false
  | .ready => false
  | .moving => false
  | .stopping => false
  | .docked => false
  | .parking => false

/-- The two states the engage timer times (R36, R41, R43). -/
def HoistState.timesEngage : HoistState → Bool
  | .engaging => true
  | .parking => true
  | .unconfigured => false
  | .releasedLocal => false
  | .parked => false
  | .proving => false
  | .ready => false
  | .moving => false
  | .stopping => false
  | .docked => false
  | .tripped => false

/-! ## Frames given to the ports -/

/-- A frame is given to a port, behind those given before (R175). -/
def State.give (s : State) (p : Port) (f : Frame) : State := { s with outbox := s.outbox ++ [(p, f)] }

/-- The frame in reception on a port has ended, whole (R173). -/
def State.received (s : State) : Port → State
  | .uplink => { s with uplinkReceiving := false }
  | .field => { s with fieldReceiving := false }

/-- A start delimiter has begun a frame on a port (R173). -/
def State.receiving (s : State) : Port → State
  | .uplink => { s with uplinkReceiving := true }
  | .field => { s with fieldReceiving := true }

/-- The other port (R175). -/
def Port.other : Port → Port
  | .uplink => .field
  | .field => .uplink

/-- A station address held as a number, as the byte a frame carries. -/
def stationByte (n : Nat) : Byte := byte n

/-- The drive station of a hoist as a frame's address; 0 while the hoist is not configured (log 17). -/
def Hoist.station (r : Hoist) : Byte :=
  match r.config with
  | some k => stationByte k.driveStation
  | none => 0

/-! ## How a command takes effect -/

/-- While the reset input is asserted the part holds its power-on state and receives nothing (R179). -/
def event (s : State) (effect : State → State) : Host.Outcome State Fault Refusal :=
  .next (if s.resetInput then s else effect s)

/-- A timer runs and has reached its expiry. -/
def due (now : Nat) : Option Nat → Bool
  | some e => decide (e ≤ now)
  | none => false

/-- An expiry of a timer. A timer that is stopped, or that has been restarted and has not reached its new expiry, does not
expire (R32 to R34, R41, R43, R109), and the command then changes nothing (logs 4 and 5). -/
def expiry (s : State) (timer : Option Nat) (effect : State → State) : State :=
  if due s.now timer = true then effect s else s

end Sys2Proof.Machine
end

