-- ==== Sys2Proof/Machine/Flags.lean ====
section
/-! DEFINITION. The attention categories and the attention output (R114, R115), and the link error indicators (R182). -/

namespace Sys2Proof.Machine

/-- The thirteen attention categories in priority order (R114). -/
inductive Category where
  | trip
  | reportLost
  | handover
  | tag
  | verify
  | weight
  | proof
  | engage
  | stale
  | mismatch
  | clamp
  | link
  | records
deriving DecidableEq, Repr

/-- The bit of a category in the attention summary: priority less 1 (R186). -/
def Category.bit : Category → Nat
  | .trip => 0
  | .reportLost => 1
  | .handover => 2
  | .tag => 3
  | .verify => 4
  | .weight => 5
  | .proof => 6
  | .engage => 7
  | .stale => 8
  | .mismatch => 9
  | .clamp => 10
  | .link => 11
  | .records => 12

/-- The set that holds one category. -/
def Category.set (c : Category) : BitVec 13 := BitVec.ofNat 13 (2 ^ c.bit)

/-- The attention output is asserted while the latched set holds a category that is not masked (R115). -/
def asserted (latched mask : BitVec 13) : Bool := latched &&& ~~~mask != 0

/-- The latched set becomes `x`, and the output is re-evaluated as part of the same event (R115). -/
def State.setLatched (s : State) (x : BitVec 13) : State :=
  { s with latched := x, attention := asserted x s.mask }

/-- The mask becomes `x`, and the output is re-evaluated as part of the same event (R115). -/
def State.setMask (s : State) (x : BitVec 13) : State :=
  { s with mask := x, attention := asserted s.latched x }

/-- A category is latched; latching one already latched changes nothing (R114). -/
def State.latch (s : State) (c : Category) : State := s.setLatched (s.latched ||| c.set)

/-- A category is in the latched set. -/
def State.isLatched (s : State) (c : Category) : Bool := s.latched.getLsbD c.bit

/-- The leading category's priority, or 0 with nothing latched (R114, R186). -/
def leadingPriority (x : BitVec 13) : Nat :=
  match [0, 1, 2, 3, 4, 5, 6, 7, 8, 9, 10, 11, 12].find? (fun i => x.getLsbD i) with
  | some i => i + 1
  | none => 0

/-- The four link error indicators (R182). -/
inductive LinkError where
  | check
  | length
  | target
  | order
deriving DecidableEq, Repr

/-- Each setting of an indicator latches LINK (R182). -/
def State.indicate (s : State) (e : LinkError) : State :=
  let links : LinkErrors :=
    match e with
    | .check => { s.links with check := true }
    | .length => { s.links with length := true }
    | .target => { s.links with target := true }
    | .order => { s.links with order := true }
  State.latch { s with links := links } .link

end Sys2Proof.Machine
end

