-- ==== Sys2Proof/Machine/Operands.lean ====
section
/-! DEFINITION. What the codes of R186 stand for, in orders, reports, annexes and answers. -/

namespace Sys2Proof.Machine

/-! ## Codes in orders -/

/-- Hoists, landings, masses and groups are given by number, from 1 (R186). -/
def numbered (n : Nat) (b : Byte) : Option (Fin n) :=
  if h : 1 ≤ b.toNat ∧ b.toNat ≤ n then some ⟨b.toNat - 1, by omega⟩ else none

def hoistOf (b : Byte) : Option HoistId := numbered 6 b
def landingOf (b : Byte) : Option LandingId := numbered 16 b
def massOf (b : Byte) : Option MassId := numbered 96 b
def groupOf (b : Byte) : Option GroupId := numbered 4 b

/-- A hoist that is within H1 to H6 and configured. -/
def State.configuredHoist (s : State) (b : Byte) : Option HoistId :=
  match hoistOf b with
  | some h => if (s.hoist h).configured then some h else none
  | none => none

/-- A landing that is within L1 to L16 and defined, with its record. -/
def State.definedLanding (s : State) (b : Byte) : Option (LandingId × LandingRec) :=
  match landingOf b with
  | some l =>
    match (s.landing l).record with
    | some r => some (l, r)
    | none => none
  | none => none

def compartmentOf (b : Byte) : Option Compartment :=
  if b = 0 then some .a else if b = 1 then some .b else none

/-- The landing byte is passed over for kinds PLAIN and BARRED (R186). -/
def zoneKindOf (kind landing : Byte) : Option ZoneKind :=
  if kind = 0 then some .plain
  else if kind = 1 then
    match landingOf landing with
    | some l => some (.landing l)
    | none => none
  else if kind = 2 then some .barred
  else none

def orderModeOf (b : Byte) : Option OrderMode :=
  if b = 0 then some .sequential else if b = 1 then some .interleaved else none

def transferKindOf (b : Byte) : Option TransferKind :=
  if b = 0 then some .deposit else if b = 1 then some .collect else none

/-- A slot selector: AUTO is `some none`, slot i is `some (some i)`. -/
def selectorOf (b : Byte) : Option (Option Nat) :=
  if b.toNat ≤ 7 then some (some b.toNat) else if b = 255 then some none else none

/-- RESOLVE outcomes (R136). -/
inductive ResolveOutcome where
  | onHoist
  | inSlot
  | unknown
deriving DecidableEq, Repr

def resolveOf (b : Byte) : Option ResolveOutcome :=
  if b = 0 then some .onHoist else if b = 1 then some .inSlot else if b = 2 then some .unknown else none

def tripScopeOf (b : Byte) : Option TripScope :=
  if b = 0 then some .isolate else if b = 1 then some .stopNeighbours else none

def staleActionOf (b : Byte) : Option StaleAction :=
  if b = 0 then some .stop else if b = 1 then some .trip else none

/-! ## Codes in reports -/

/-- A code other than 0 or 1 is held as INVALID (R24). -/
def driveModeOf (b : Byte) : DriveMode :=
  if b = 0 then .park else if b = 1 then .run else .invalid

/-- Bits 3 to 4 of the flags; 3 is read as NONE (R186). -/
def proofResultOf (flags : Byte) : ProofResult :=
  if flags.extractLsb' 3 2 = 1 then .pass else if flags.extractLsb' 3 2 = 2 then .fail else .none

/-- A state code above 4 is held as FAULT (R178). -/
def shuttleStateOf (b : Byte) : ShuttleState :=
  if b = 0 then .idle else if b = 1 then .latched else if b = 2 then .busy else if b = 3 then .done else .fault

/-! ## Codes in annexes and answers -/

def Compartment.code : Compartment → Nat
  | .a => 0
  | .b => 1

def CompartmentState.code : CompartmentState → Nat
  | .unconfigured => 0
  | .supervised => 1
  | .released => 2

def ZoneKind.code : ZoneKind → Nat
  | .plain => 0
  | .landing _ => 1
  | .barred => 2

/-- The landing of a zone, 0 for none (R186). -/
def ZoneKind.landingCode : ZoneKind → Nat
  | .landing l => l.val + 1
  | .plain => 0
  | .barred => 0

def OrderMode.code : OrderMode → Nat
  | .sequential => 0
  | .interleaved => 1

/-- Bit 0 compartment A, bit 1 compartment B (R186). -/
def LandingRec.servedCode (r : LandingRec) : Nat := (if r.servesA then 1 else 0) + (if r.servesB then 2 else 0)

def HoistState.code : HoistState → Nat
  | .unconfigured => 0
  | .releasedLocal => 1
  | .parked => 2
  | .proving => 3
  | .engaging => 4
  | .ready => 5
  | .moving => 6
  | .stopping => 7
  | .docked => 8
  | .parking => 9
  | .tripped => 10

/-- 0 NONE, 1 to 96 MASS(m), 255 UNKNOWN_LOAD (R186). -/
def Carried.code : Carried → Nat
  | .none => 0
  | .mass m => m.val + 1
  | .unknownLoad => 255

def ClampReason.code : ClampReason → Nat
  | .none => 0
  | .envelope => 1
  | .saturated => 2
  | .state => 3
  | .mismatch => 4

def ProofStatus.code : ProofStatus → Nat
  | .current => 0
  | .due => 1
  | .lapsed => 2

def TripCause.code : TripCause → Nat
  | .overtravel => 1
  | .overspeed => 2
  | .separation => 3
  | .driveFault => 4
  | .proofFail => 5
  | .reportLoss => 6
  | .parkFail => 7
  | .stale => 8

def Freshness.code : Freshness → Nat
  | .none => 0
  | .fresh => 1
  | .lapsed => 2

def DriveMode.code : DriveMode → Nat
  | .park => 0
  | .run => 1
  | .invalid => 2

def Brake.code : Brake → Nat
  | .set => 0
  | .lifted => 1

def Direction.code : Direction → Nat
  | .down => 0
  | .up => 1

def StopReason.code : StopReason → Nat
  | .stopped => 1
  | .stale => 2

def SlotState.code : SlotState → Nat
  | .empty => 0
  | .occupied _ => 1
  | .reserved _ => 2
  | .unverified _ => 3
  | .blocked _ => 4

/-- The mass or expectation a slot names. -/
def SlotState.names : SlotState → Option MassId
  | .empty => none
  | .occupied m => some m
  | .reserved m => some m
  | .unverified x => x
  | .blocked x => x

/-- A mass that may be absent, 0 for none (R186). -/
def massCode : Option MassId → Nat
  | some m => m.val + 1
  | none => 0

def ShuttleState.code : ShuttleState → Nat
  | .idle => 0
  | .latched => 1
  | .busy => 2
  | .done => 3
  | .fault => 4
  | .unknown => 5

def ShuttleHolder.code : ShuttleHolder → Nat
  | .none => 0
  | .handover h => h.val + 1
  | .survey => 255

def TransferKind.code : TransferKind → Nat
  | .deposit => 0
  | .collect => 1

def Phase.code : Phase → Nat
  | .waiting => 0
  | .latching => 1
  | .transferring => 2
  | .unlatching => 3
  | .stuck => 4

def HandoverOutcome.code : HandoverOutcome → Nat
  | .done => 1
  | .failed => 2
  | .abandoned => 3

def MassStatus.code : MassStatus → Nat
  | .absent => 0
  | .placed _ => 1
  | .uncertain _ => 2

def MoveOutcome.code : MoveOutcome → Nat
  | .arrived => 0
  | .stopped => 1
  | .stale => 2
  | .tripped => 3

/-- bit 0 WAITED, bit 1 CLAMPED, bit 2 DEGRADED (R186). -/
def moveFlagsCode (waited clamped degraded : Bool) : Nat :=
  (if waited then 1 else 0) + (if clamped then 2 else 0) + (if degraded then 4 else 0)

/-! ## Answers -/

/-- The ten results (R181). -/
inductive Result where
  | accepted
  | state
  | range
  | target
  | scope
  | proof
  | conflict
  | occupied
  | table
  | busy
deriving DecidableEq, Repr

def Result.code : Result → Nat
  | .accepted => 0
  | .state => 1
  | .range => 2
  | .target => 3
  | .scope => 4
  | .proof => 5
  | .conflict => 6
  | .occupied => 7
  | .table => 8
  | .busy => 9

/-- What an ANSWER says beyond the tag and the code (R181). The detail is 0 unless the order's rule gives one, and a
refused order carries no data. -/
structure Reply where
  result : Result
  detail : Nat
  data   : List Byte
deriving DecidableEq, Repr

/-- The order is refused and changes nothing. -/
def State.refuse (s : State) (r : Result) : State × Reply := (s, ⟨r, 0, []⟩)

/-- The order is refused with a detail. -/
def State.refuseWith (s : State) (r : Result) (detail : Nat) : State × Reply := (s, ⟨r, detail, []⟩)

/-- The order is accepted with its effects made. -/
def State.accept (s : State) : State × Reply := (s, ⟨.accepted, 0, []⟩)

/-- The order is accepted with a detail. -/
def State.acceptWith (s : State) (detail : Nat) : State × Reply := (s, ⟨.accepted, detail, []⟩)

/-- The query is accepted and carries data. -/
def State.acceptData (s : State) (data : List Byte) : State × Reply := (s, ⟨.accepted, 0, data⟩)

/-- One ANSWER for a consumed ORDER: the strap address, the tag echoed, the code as received, the result, the detail and
the data (R181). -/
def State.answer (s : State) (o : OrderHead) (code : Byte) (r : Reply) : State :=
  s.give .uplink
    (makeFrame (s.strapAddress.setWidth 8) kindAnswer
      (o.tag :: code :: byte r.result.code :: byte r.detail :: r.data))

/-- The part's own station address, when its straps give it one (R179). -/
def ownStation (strap : Straps) : Option Byte :=
  if strap = 0 ∨ strap = 63 then none else some (strap.setWidth 8)

/-- An ORDER to this address is consumed (R180). -/
def State.consumes (s : State) (o : OrderHead) : Bool := ownStation s.strapAddress == some o.address

/-- What becomes of an ORDER that is not consumed: to broadcast it is dropped and sets ORDER, to any other station it is
dropped and sets TARGET (R180). -/
def State.dropOrder (s : State) (o : OrderHead) : State :=
  if o.address = broadcast then s.indicate .order else s.indicate .target

/-- An ORDER with a known code and its right length, received whole on the uplink: consumed, carried out whole and then
answered, or dropped (R180). -/
def State.takeOrder (s : State) (o : OrderHead) (code : Byte) (body : State → State × Reply) : State :=
  let s := s.received .uplink
  if s.consumes o then
    let out := body s
    out.1.answer o code out.2
  else s.dropOrder o

/-- The meaning shared by every order: R179's reset input, then R180. -/
def order (s : State) (o : OrderHead) (code : Byte) (body : State → State × Reply) : Host.Outcome State Fault Refusal :=
  event s fun s => s.takeOrder o code body

end Sys2Proof.Machine
end

