-- ==== Sys2Proof/Machine/Shaft.lean ====
section
/-! DEFINITION. Zone tables: decoding a depth and a span (R19, R20), validation (R9, R10) and the conflict test of
candidate runs (R12, R147). -/

namespace Sys2Proof.Machine

/-! ## Zones of a table -/

/-- Entry `z` of a table, numbered from 1 (R5). -/
def ZoneTable.entry (t : ZoneTable) (z : Nat) : ZoneEntry := t.entries.toList.getD (z - 1) .blank

/-- The zones of a table, from the top (R5). -/
def ZoneTable.zones (t : ZoneTable) : List Nat := List.range' 1 t.count

/-- A zone's upper boundary (R5). -/
def ZoneTable.upper (t : ZoneTable) (z : Nat) : Nat := (t.entry z).upper

/-- A zone's lower boundary: the next entry's upper boundary, or the floor for the last entry (R5). -/
def ZoneTable.lower (t : ZoneTable) (floor z : Nat) : Nat := if z < t.count then t.upper (z + 1) else floor

/-- A zone that no hoist may hold (R5). -/
def ZoneTable.barred (t : ZoneTable) (z : Nat) : Bool := (t.entry z).kind == .barred

/-- A zone's interval includes its upper boundary and excludes its lower; the last zone includes the floor (R19). -/
def ZoneTable.contains (t : ZoneTable) (floor z x : Nat) : Bool :=
  decide (t.upper z ≤ x) && (decide (x < t.lower floor z) || (z == t.count && decide (x ≤ floor)))

/-- The zone of a depth; none in an empty table (R19). R19 gives every decoded depth one zone. A C held since before SHAFT_WRITE
lowered the floor lies beyond it until the next REPORT (R4, R25), and decodes as the floor depth does: DESIGN CHOICE, log 28
(unsafe). -/
def ZoneTable.zoneAt (t : ZoneTable) (floor x : Nat) : Option Nat :=
  t.zones.find? fun z => t.contains floor z (min x floor)

/-- The zones that a span overlaps, from the zone of its top to the zone of its bottom (R20); none in an empty table. An end held
from before SHAFT_WRITE lowered the floor lies in the last zone (R25, R29; DESIGN CHOICE, log 28). -/
def ZoneTable.overlap (t : ZoneTable) (floor top bottom : Nat) : Option Run :=
  match t.zoneAt floor top, t.zoneAt floor bottom with
  | some a, some b => if a ≤ b then some ⟨a, b⟩ else none
  | _, _ => none

/-- The zones of a run, top to bottom (R62). -/
def Run.zones (r : Run) : List Nat := List.range' r.top (r.bottom + 1 - r.top)

/-- A zone lies in a run. -/
def Run.holds (r : Run) (z : Nat) : Bool := decide (r.top ≤ z) && decide (z ≤ r.bottom)

/-- The zones of a run that may be empty. -/
def runZones : Option Run → List Nat
  | some r => r.zones
  | none => []

/-- A zone lies in a run that may be empty. -/
def inRun : Option Run → Nat → Bool
  | some r, z => r.holds z
  | none, _ => false

/-- A hoist's span from the CT, the conveyance's top to its bottom, when the part holds a REPORT (R29). -/
def Hoist.span (r : Hoist) : Option (Nat × Nat) :=
  match r.latest with
  | some l => some (l.spanTop, l.depth)
  | none => none

/-- The zones of a table that a hoist's span overlaps (R20); none while the part holds no REPORT of it (log 17). -/
def State.spanZones (s : State) (t : ZoneTable) (r : Hoist) : Option Run :=
  match r.span with
  | some (a, b) => t.overlap s.shaft.floor a b
  | none => none

/-! ## Validation of a shadow table (R9, R10) -/

/-- Count check (R9). -/
def ZoneTable.countFault (t : ZoneTable) : Option Nat := if 1 ≤ t.count ∧ t.count ≤ 48 then none else some 0

/-- Boundary check (R9): entry 1 at 0, each later entry greater than the one before. -/
def ZoneTable.boundaryFault (t : ZoneTable) : Option Nat :=
  t.zones.find? fun z => if z = 1 then decide (t.upper 1 ≠ 0) else decide (t.upper z ≤ t.upper (z - 1))

/-- Length check (R9): each zone at least 2,000 mm long. -/
def ZoneTable.lengthFault (t : ZoneTable) (floor : Nat) : Option Nat :=
  t.zones.find? fun z => decide (t.lower floor z < t.upper z + Config.minZone)

/-- A landing record serves a compartment (R15). -/
def LandingRec.serves (r : LandingRec) : Compartment → Bool
  | .a => r.servesA
  | .b => r.servesB

/-- A defined landing that serves a compartment. -/
def State.landingServes (s : State) (l : LandingId) (c : Compartment) : Bool :=
  match (s.landing l).record with
  | some r => r.serves c
  | none => false

/-- A table's zone names a landing (R10). -/
def ZoneTable.namesAt (t : ZoneTable) (l : LandingId) (z : Nat) : Bool := (t.entry z).kind == .landing l

/-- A table names a landing in some zone. -/
def ZoneTable.names (t : ZoneTable) (l : LandingId) : Bool := t.zones.any fun z => t.namesAt l z

/-- One LANDING entry passes the landing zone check (R10). -/
def State.landingZoneHolds (s : State) (c : Compartment) (t : ZoneTable) (z : Nat) (l : LandingId) : Bool :=
  match (s.landing l).record with
  | some r =>
    r.serves c && decide (t.upper z ≤ r.sill) && decide (r.sill < t.lower s.shaft.floor z) &&
      !((t.zones.filter fun y => decide (y < z)).any fun y => t.namesAt l y)
  | none => false

/-- Landing zone check (R10). -/
def State.landingZoneFault (s : State) (c : Compartment) (t : ZoneTable) : Option Nat :=
  t.zones.find? fun z =>
    match (t.entry z).kind with
    | .landing l => !s.landingZoneHolds c t z l
    | .plain => false
    | .barred => false

/-- Landing coverage check (R10): the detail is 128 plus the landing's number. -/
def State.coverageFault (s : State) (c : Compartment) (t : ZoneTable) : Option Nat :=
  match allLandings.find? fun l => s.landingServes l c && !t.names l with
  | some l => some (128 + (l.val + 1))
  | none => none

/-- The first of two findings. -/
def firstFault (x y : Option Nat) : Option Nat :=
  match x with
  | some d => some d
  | none => y

/-- The landing checks of R10. -/
def State.landingFault (s : State) (c : Compartment) (t : ZoneTable) : Option Nat :=
  firstFault (s.landingZoneFault c t) (s.coverageFault c t)

/-- The five checks in order; the detail of the first failure, or none for a valid table (R9, R10). -/
def State.tableFault (s : State) (c : Compartment) (t : ZoneTable) : Option Nat :=
  firstFault t.countFault (firstFault t.boundaryFault (firstFault (t.lengthFault s.shaft.floor) (s.landingFault c t)))

/-- The committed table takes the shadow's count and its entries 1 to count; entries beyond keep what they held (R11). -/
def ZoneTable.commitOver (shadow committed : ZoneTable) : ZoneTable :=
  ⟨shadow.count, Vector.ofFn fun i => if i.val < shadow.count then shadow.entries[i.val] else committed.entries[i.val]⟩

/-- A committed table is emptied: its count becomes 0 (R4, R17, R18). -/
def State.emptyTable (s : State) (c : Compartment) : State :=
  s.modComp c fun k => { k with committed := { k.committed with count := 0 } }

/-! ## Candidate runs (R12, R147) -/

/-- A hoist with the run it would be given. -/
structure Candidate where
  hoist : HoistId
  rank  : Nat
  run   : Run
deriving DecidableEq, Repr

/-- The candidate runs of a compartment's configured hoists against a table (R12, R147). A hoist whose held C lies beyond a floor
lowered since its last REPORT is tested in the last zone (R4, R19, R25; DESIGN CHOICE, log 28, unsafe). -/
def State.candidates (s : State) (c : Compartment) (t : ZoneTable) : List Candidate :=
  (s.hoistsOf c).filterMap fun h =>
    match s.spanZones t (s.hoist h) with
    | some r => some ⟨h, (s.hoist h).rank, r⟩
    | none => none

/-- A conflict is found at this zone: it is BARRED, it lies in two candidate runs, or it is a zone of a run of rank r
that does not lie above every zone of a run of rank s > r (R12, R147; DEDUCED which zone the last is found at, log 14). -/
def conflictAt (t : ZoneTable) (cs : List Candidate) (z : Nat) : Bool :=
  cs.any fun x =>
    x.run.holds z &&
      (t.barred z ||
        cs.any fun y =>
          y.hoist != x.hoist && (y.run.holds z || (decide (x.rank < y.rank) && decide (y.run.top ≤ z))))

/-- The uppermost zone at which a conflict is found (R12, R147). -/
def conflictZone (t : ZoneTable) (cs : List Candidate) : Option Nat := t.zones.find? fun z => conflictAt t cs z

end Sys2Proof.Machine
end

