-- ==== Sys2Proof/Machine/Envelope.lean ====
section
/-! DEFINITION. The speed envelope (R83 to R91) and the clamp (R94 to R97). -/

namespace Sys2Proof.Machine

/-! ## Integer square root (00, Arithmetic) -/

/-- The bits of the root from bit `k - 1` down, added to what is found. -/
def isqrtFrom (n : Nat) : Nat → Nat → Nat
  | 0, r => r
  | k + 1, r => if (r + 2 ^ k) * (r + 2 ^ k) ≤ n then isqrtFrom n k (r + 2 ^ k) else isqrtFrom n k r

/-- The greatest integer whose square does not exceed the argument. -/
def isqrt (n : Nat) : Nat := isqrtFrom n (n.log2 / 2 + 1) 0

/-! ## Runs and their ends -/

/-- Run top: the upper boundary of the run's top zone, 0 for an empty run (R63). -/
def runTop (t : ZoneTable) : Option Run → Nat
  | some r => t.upper r.top
  | none => 0

/-- Run bottom: the lower boundary of the run's bottom zone, 0 for an empty run (R63). -/
def runBottom (t : ZoneTable) (floor : Nat) : Option Run → Nat
  | some r => t.lower floor r.bottom
  | none => 0

/-- The committed table that governs a hoist; a blank one while it is not configured (log 17). -/
def State.tableOf (s : State) (r : Hoist) : ZoneTable :=
  match r.config with
  | some k => (s.comp k.compartment).committed
  | none => .blank

/-! ## The four terms -/

/-- Effective ceiling P, the term T1 (R83, R84). -/
def effectiveCeiling (degradedCeiling : Nat) (r : Hoist) : Nat :=
  match r.proofStatus with
  | .current => r.profileCeiling
  | .due => min r.profileCeiling degradedCeiling
  | .lapsed => min r.profileCeiling degradedCeiling

/-- T2: the ceilings of the zones the span overlaps (R84). -/
def presentCeilings (t : ZoneTable) (floor : Nat) (r : Hoist) : List Nat :=
  (runZones (t.overlap floor r.spanTop r.depth)).map fun z => (t.entry z).ceiling

/-- The target, when it applies in a direction: MOVING, move open, and the target that way from C (R86). -/
def appliedTarget (r : Hoist) (d : Direction) : Option Nat :=
  match r.state, r.move with
  | .moving, some m =>
    match d with
    | .down => if m.isOpen = true ∧ r.depth < m.target then some m.target else none
    | .up => if m.isOpen = true ∧ m.target < r.depth then some m.target else none
  | _, _ => none

/-- The target zone contains T downward and T - height, floored at 0, upward (R86). -/
def targetZone (t : ZoneTable) (floor height target : Nat) : Direction → Option Nat
  | .down => t.zoneAt floor target
  | .up => t.zoneAt floor (target - height)

/-- A zone of the run lies ahead in a direction (R85). -/
def liesAhead (t : ZoneTable) (floor : Nat) (r : Hoist) (d : Direction) (z : Nat) : Bool :=
  match d with
  | .down => decide (r.depth < t.upper z)
  | .up => decide (t.lower floor z ≤ r.spanTop)

/-- The distance from the leading edge to the near boundary of a zone ahead (R85). -/
def approachDistance (t : ZoneTable) (floor : Nat) (r : Hoist) (d : Direction) (z : Nat) : Nat :=
  match d with
  | .down => t.upper z - r.depth
  | .up => r.spanTop - t.lower floor z

/-- A zone does not lie beyond the target zone, when the target applies (R87). -/
def withinTarget (tz : Option Nat) (d : Direction) (z : Nat) : Bool :=
  match tz, d with
  | some y, .down => decide (z ≤ y)
  | some y, .up => decide (y ≤ z)
  | none, _ => true

/-- T3: the terms of the zones ahead (R87). -/
def approachTerms (t : ZoneTable) (floor : Nat) (r : Hoist) (d : Direction) : List Nat :=
  let tz :=
    match appliedTarget r d with
    | some x => targetZone t floor r.height x d
    | none => none
  ((runZones r.run).filter fun z => liesAhead t floor r d z && withinTarget tz d z).map fun z =>
    isqrt ((t.entry z).ceiling ^ 2 + 2 * r.decel * approachDistance t floor r d z)

/-- The run-limit distance, floored at 0 (R88, R89). -/
def runLimit (t : ZoneTable) (floor guard : Nat) (r : Hoist) : Direction → Nat
  | .down => runBottom t floor r.run - r.depth - guard
  | .up => r.spanTop - runTop t r.run - guard

/-- The stop distance (R89). -/
def stopDistance (t : ZoneTable) (floor guard : Nat) (r : Hoist) (d : Direction) : Nat :=
  match appliedTarget r d, d with
  | some x, .down => min (runLimit t floor guard r d) (x - r.depth)
  | some x, .up => min (runLimit t floor guard r d) (r.depth - x)
  | none, _ => runLimit t floor guard r d

/-- T4: the stop term (R89). -/
def stopTerm (t : ZoneTable) (floor guard : Nat) (r : Hoist) (d : Direction) : Nat :=
  isqrt (2 * r.decel * stopDistance t floor guard r d)

/-- The least of a first number and the numbers of a list. -/
def least (first : Nat) (rest : List Nat) : Nat := rest.foldl min first

/-- The least of the four terms for a direction (R84 to R90). -/
def State.envelopeTerms (s : State) (r : Hoist) (d : Direction) : Nat :=
  let t := s.tableOf r
  least (effectiveCeiling s.degradedCeiling r)
    (presentCeilings t s.shaft.floor r ++ approachTerms t s.shaft.floor r d ++
      [stopTerm t s.shaft.floor s.shaft.guard r d])

/-- The states that let a velocity through to the clamp, and have an envelope (R38, R90). -/
def HoistState.takesVelocity : HoistState → Bool
  | .ready => true
  | .moving => true
  | .unconfigured => false
  | .releasedLocal => false
  | .parked => false
  | .proving => false
  | .engaging => false
  | .stopping => false
  | .docked => false
  | .parking => false
  | .tripped => false

/-- The envelope in a direction: the four terms in READY and MOVING, 0 in any other state (R90). -/
def State.envelope (s : State) (r : Hoist) (d : Direction) : Nat :=
  if r.state.takesVelocity = true then s.envelopeTerms r d else 0

/-- The EC recomputes both envelopes of a hoist (R91). -/
def State.recompute (s : State) (h : HoistId) : State :=
  s.modHoist h fun r => { r with envDown := s.envelope r .down, envUp := s.envelope r .up }

/-! ## The clamp -/

/-- Saturation of a demanded velocity (R94). -/
def saturate (v : Int) : Int := max (-20000) (min 20000 v)

/-- The saturated velocity cut to the envelope in its direction (R95). -/
def clampTo (envDown envUp : Nat) (v : Int) : Int :=
  if 0 < v then min v envDown else if v < 0 then -(min (-v) envUp) else 0

/-- The phase match: the latest REPORT shows drive mode RUN and brake LIFTED (R39). -/
def Hoist.phaseMatch (r : Hoist) : Bool :=
  match r.latest with
  | some l => l.mode == .run && l.brake == .lifted
  | none => false

/-- The mode a DEMAND goes down with (R38). -/
def HoistState.forwardedMode : HoistState → DriveMode
  | .unconfigured => .park
  | .releasedLocal => .park
  | .parked => .park
  | .proving => .park
  | .parking => .park
  | .tripped => .park
  | .engaging => .run
  | .stopping => .run
  | .docked => .run
  | .ready => .run
  | .moving => .run

/-- The velocity a DEMAND goes down with, from the velocity demanded (R38, R39, R94, R95). -/
def Hoist.forwardedVelocity (r : Hoist) (demanded : Int) : Int :=
  if r.state.takesVelocity = true ∧ r.phaseMatch = true then clampTo r.envDown r.envUp (saturate demanded) else 0

/-- The clamp reason recorded for a DEMAND, the first case that applies (R96). -/
def Hoist.clampReason (r : Hoist) (demanded : Int) : ClampReason :=
  if saturate demanded = 0 then .none
  else if r.state.takesVelocity = false then .state
  else if r.phaseMatch = false then .mismatch
  else if r.forwardedVelocity demanded ≠ saturate demanded then .envelope
  else if saturate demanded ≠ demanded then .saturated
  else .none

end Sys2Proof.Machine
end

