-- ==== Sys2Proof/Machine/Claims.lean ====
section
/-! DEFINITION. Holders, runs, pending extents and every change of them (R61 to R79). The holder of a zone is read off
the runs, with which R61 keeps it in agreement (log 10). -/

namespace Sys2Proof.Machine

/-! ## Holders -/

/-- The holder of a zone: the hoist of the compartment whose run contains it (R61). -/
def State.holder (s : State) (c : Compartment) (z : Nat) : Option HoistId :=
  (s.hoistsOf c).find? fun h => inRun (s.hoist h).run z

/-- A zone whose holder is none is free (R61). -/
def State.isFree (s : State) (c : Compartment) (z : Nat) : Bool := (s.holder c z).isNone

/-- The awaited zone: the head of the pending extent (R65). -/
def Hoist.awaited (r : Hoist) : Option Nat := r.extent.head?

/-! ## The pending extent (R64) -/

/-- The far depth for a target (R64). -/
def State.farDepth (s : State) (height target : Nat) : Direction → Nat
  | .down => min (target + s.shaft.guard) s.shaft.floor
  | .up => target - height - s.shaft.guard

/-- The zones from the one next beyond the leading end to the far zone, in travel order; empty when the far zone lies in
the run or behind it (R64). -/
def beyondZones (run : Run) (far : Nat) : Direction → List Nat
  | .down => List.range' (run.bottom + 1) (far - run.bottom)
  | .up => (List.range' far (run.top - far)).reverse

/-- The pending extent formed from a run and a target: it ends before the first BARRED zone met (R64). -/
def State.extentFor (s : State) (t : ZoneTable) (run : Option Run) (height target : Nat) (d : Direction) : List Nat :=
  match run, t.zoneAt s.shaft.floor (s.farDepth height target d) with
  | some r, some far => (beyondZones r far d).takeWhile fun z => !t.barred z
  | _, _ => []

/-! ## Walks (R66) -/

/-- The run with one zone added at its leading end (R66). -/
def growRun (run : Option Run) (d : Direction) (z : Nat) : Option Run :=
  match run, d with
  | some r, .down => some { r with bottom := z }
  | some r, .up => some { r with top := z }
  | none, _ => some ⟨z, z⟩

/-- One walk: the run it leaves and what is left of the extent, the awaited zone at its head (R66). -/
def walkZones (free : Nat → Bool) (d : Direction) : List Nat → Option Run → Option Run × List Nat
  | [], run => (run, [])
  | z :: rest, run => if free z = true then walkZones free d rest (growRun run d z) else (run, z :: rest)

/-- The flags of the move part, where there is one. -/
def Hoist.modMove (r : Hoist) (f : Move → Move) : Hoist :=
  match r.move with
  | some m => { r with move := some (f m) }
  | none => r

/-- WAITED of the hoist's move part is set, where there is one (R65, R124, R126). -/
def Hoist.setWaited (r : Hoist) : Hoist := r.modMove fun m => { m with waited := true }

/-- The direction of the hoist's move; DOWN with no move part (log 17). -/
def Hoist.moveDirection (r : Hoist) : Direction :=
  match r.move with
  | some m => m.direction
  | none => .down

/-- A walk of a hoist's pending extent. A walk that ends at a held zone sets WAITED (R65); one that has granted a zone
recomputes the envelope (R66, R80). -/
def State.walk (s : State) (h : HoistId) : State :=
  let r := s.hoist h
  match r.config with
  | some k =>
    let out := walkZones (s.isFree k.compartment) r.moveDirection r.extent r.run
    let left : Hoist := { r with run := out.1, extent := out.2 }
    let s := s.setHoist h (if out.2 = [] then left else left.setWaited)
    if out.1 = r.run then s else s.recompute h
  | none => s

/-! ## Releases and offers (R69) -/

/-- Of two waiters, the one R69 takes first: the earlier start time, then the lower rank. -/
def State.waitsBefore (s : State) (h k : HoistId) : Bool :=
  let start (r : Hoist) : Nat :=
    match r.move with
    | some m => m.startTime
    | none => 0
  let a := start (s.hoist h)
  let b := start (s.hoist k)
  decide (a < b) || (a == b && decide ((s.hoist h).rank < (s.hoist k).rank))

/-- The hoist of the compartment that a released zone is offered to (R69). -/
def State.waiterFor (s : State) (c : Compartment) (z : Nat) : Option HoistId :=
  match (s.hoistsOf c).filter fun h => (s.hoist h).awaited == some z with
  | [] => none
  | h :: rest => some (rest.foldl (fun best k => if s.waitsBefore k best = true then k else best) h)

/-- A zone that has become free is offered to the hoist that awaits it (R69). -/
def State.offer (s : State) (c : Compartment) (z : Nat) : State :=
  match s.waiterFor c z with
  | some h => s.walk h
  | none => s

/-- Zones are offered in the order in which they left a run (R69). -/
def State.offerAll (s : State) (c : Compartment) (zs : List Nat) : State := zs.foldl (fun s z => s.offer c z) s

/-- A hoist's run becomes `run`, its envelope is recomputed (R80), and the zones that left are offered in turn (R69). -/
def State.setRun (s : State) (h : HoistId) (run : Option Run) (left : List Nat) : State :=
  let s := (s.modHoist h fun r => { r with run := run }).recompute h
  match (s.hoist h).config with
  | some k => s.offerAll k.compartment left
  | none => s

/-! ## Release behind (R70, R71) -/

/-- The zones of a run from its trailing end (R70). -/
def trailingZones (run : Run) : Direction → List Nat
  | .down => run.zones
  | .up => run.zones.reverse

/-- A zone qualifies for release behind (R70). -/
def qualifiesBehind (t : ZoneTable) (floor guard top bottom : Nat) (d : Direction) (z : Nat) : Bool :=
  (match d with
    | .down => decide (t.lower floor z + guard ≤ top)
    | .up => decide (bottom + guard ≤ t.upper z)) &&
  !inRun (t.overlap floor top bottom) z

/-- The zones a release behind frees: from the trailing end while they qualify, never the last zone of the run (R70,
R71). -/
def behindZones (t : ZoneTable) (floor guard top bottom : Nat) (d : Direction) (run : Run) : List Nat :=
  (trailingZones run d).dropLast.takeWhile fun z => qualifiesBehind t floor guard top bottom d z

/-- A run less `n` zones at its trailing end (R70). -/
def shortenBehind (run : Run) (n : Nat) : Direction → Run
  | .down => { run with top := run.top + n }
  | .up => { run with bottom := run.bottom - n }

/-- Release behind at a REPORT of a MOVING or STOPPING hoist, in the move's held direction (R70, R71). -/
def State.releaseBehind (s : State) (h : HoistId) : State :=
  let r := s.hoist h
  if r.state = .moving ∨ r.state = .stopping then
    match r.run with
    | some run =>
      let d := r.moveDirection
      let zs := behindZones (s.tableOf r) s.shaft.floor s.shaft.guard r.spanTop r.depth d run
      if zs = [] then s else s.setRun h (some (shortenBehind run zs.length d)) zs
    | none => s
  else s

/-! ## Trims and runs set to the span (R75, R76) -/

/-- The zones of a run that lie in another. -/
def meetRun (run keep : Run) : Option Run :=
  if max run.top keep.top ≤ min run.bottom keep.bottom then
    some ⟨max run.top keep.top, min run.bottom keep.bottom⟩
  else none

/-- The zones of an old run outside a new one, in the order in which they leave: those beyond the new run's bottom from
the far end inward, then those above its top (R75). -/
def leavingZones (old new : Option Run) : List Nat :=
  match old with
  | some o => ((o.zones.filter fun z => !inRun new z && below new z).reverse) ++
      (o.zones.filter fun z => !inRun new z && !below new z)
  | none => []
where
  /-- A zone lies beyond the new run's bottom. -/
  below (new : Option Run) (z : Nat) : Bool :=
    match new with
    | some n => decide (n.bottom < z)
    | none => true

/-- The run keeps those of its zones that lie in `keep`; the others are released and offered (R75, R76). -/
def State.trimTo (s : State) (h : HoistId) (keep : Option Run) : State :=
  let r := s.hoist h
  match r.run, keep with
  | some run, some k =>
    let new := meetRun run k
    if new = some run then s else s.setRun h new (leavingZones (some run) new)
  | _, _ => s

/-- The trim at a move end: the zones that overlap the span widened by the guard distance on both sides, within the shaft
(R75). -/
def State.trimAtMoveEnd (s : State) (h : HoistId) : State :=
  let r := s.hoist h
  s.trimTo h
    ((s.tableOf r).overlap s.shaft.floor (r.spanTop - s.shaft.guard) (min (r.depth + s.shaft.guard) s.shaft.floor))

/-- The trim at parking: the zones the span overlaps (R43, R76). -/
def State.trimToSpan (s : State) (h : HoistId) : State :=
  let r := s.hoist h
  s.trimTo h (s.spanZones (s.tableOf r) r)

/-- The run becomes exactly the zones the span overlaps (R54, R76, R148). -/
def State.runToSpan (s : State) (h : HoistId) : State :=
  let r := s.hoist h
  let new := s.spanZones (s.tableOf r) r
  s.setRun h new (leavingZones r.run new)

/-- The pending extent is dropped (R72, R75, R77). -/
def State.clearExtent (s : State) (h : HoistId) : State := s.modHoist h fun r => { r with extent := [] }

/-! ## Mutual wait (R68) -/

/-- The first zone of an extent that another hoist holds (R68). -/
def State.firstHeld (s : State) (c : Compartment) (h : HoistId) (zs : List Nat) : Option Nat :=
  zs.find? fun z =>
    match s.holder c z with
    | some k => k != h
    | none => false

/-- The zone whose mutual wait refuses an order, if the order would bring one about (R68). -/
def State.mutualWait (s : State) (c : Compartment) (h : HoistId) (run : Option Run) (zs : List Nat) : Option Nat :=
  match s.firstHeld c h zs with
  | some z =>
    match s.holder c z with
    | some k =>
      match (s.hoist k).awaited with
      | some y => if inRun run y = true then some z else none
      | none => none
    | none => none
  | none => none

/-! ## Retargets (R73, R74) -/

/-- The stopping point (R73). -/
def State.stoppingPoint (s : State) (r : Hoist) : Direction → Nat
  | .down => min (r.depth + r.speed.natAbs ^ 2 / (2 * r.decel)) s.shaft.floor
  | .up => r.depth - r.speed.natAbs ^ 2 / (2 * r.decel)

/-- The keep depth: the stopping point or the new far depth, whichever lies farther in the direction of the move
(R73). -/
def State.keepDepth (s : State) (r : Hoist) (target : Nat) (d : Direction) : Nat :=
  match d with
  | .down => max (s.stoppingPoint r .down) (s.farDepth r.height target .down)
  | .up => min (s.stoppingPoint r .up) (s.farDepth r.height target .up)

/-- The run as a retarget leaves it before its walk: the zones up to the keep zone, with those the span overlaps
(R74). Where the keep zone and the span lie behind the whole run, R74 would release every zone and R62 forbids an empty run: the
run keeps the zone at its trailing end (DESIGN CHOICE, log 34, unsafe). -/
def State.retargetRun (s : State) (r : Hoist) (target : Nat) (d : Direction) : Option Run :=
  let t := s.tableOf r
  match r.run, t.zoneAt s.shaft.floor (s.keepDepth r target d) with
  | some run, some z =>
    let span := s.spanZones t r
    match d with
    | .down =>
      let z := match span with
        | some x => max z x.bottom
        | none => z
      some { run with bottom := max run.top (min run.bottom z) }
    | .up =>
      let z := match span with
        | some x => min z x.top
        | none => z
      some { run with top := min run.bottom (max run.top z) }
  | run, _ => run

/-- The zones a retarget releases, from the far end of the run towards the keep zone (R74). -/
def retargetLeaving (old new : Option Run) : Direction → List Nat
  | .down => ((runZones old).filter fun z => !inRun new z).reverse
  | .up => (runZones old).filter fun z => !inRun new z

/-! ## Overtravel and trip additions (R77 to R79) -/

/-- A hoist's open handover, with the landing that holds it (R125). -/
def State.openHandover (s : State) (h : HoistId) : Option (LandingId × Handover) :=
  allLandings.findSome? fun l =>
    match (s.landing l).queue.find? fun v => v.hoist == h with
    | some v => some (l, v)
    | none => none

/-- The span of the overtravel test and the trip additions: the sill depth takes the place of C while a handover of the
hoist is open (R79). -/
def State.claimSpan (s : State) (h : HoistId) : Option (Nat × Nat) :=
  match s.openHandover h with
  | some (l, _) =>
    match (s.landing l).record with
    | some rec => some (rec.sill - (s.hoist h).height, rec.sill)
    | none => (s.hoist h).span
  | none => (s.hoist h).span

/-- The zones of that span (R20). -/
def State.claimZones (s : State) (h : HoistId) : Option Run :=
  match s.claimSpan h with
  | some (a, b) => (s.tableOf (s.hoist h)).overlap s.shaft.floor a b
  | none => none

/-- The states in which the overtravel test is made (R78). -/
def HoistState.testsOvertravel : HoistState → Bool
  | .parked => true
  | .proving => true
  | .engaging => true
  | .ready => true
  | .moving => true
  | .stopping => true
  | .docked => true
  | .parking => true
  | .unconfigured => false
  | .releasedLocal => false
  | .tripped => false

/-- Some zone of the span is not in the run (R78). -/
def State.overtravels (s : State) (h : HoistId) : Bool :=
  (s.hoist h).state.testsOvertravel &&
    match s.claimZones h with
    | some x => x.zones.any fun z => !inRun (s.hoist h).run z
    | none => false

/-- How many zones a trip adds at one end: outward from the run while free and not BARRED (R77). -/
def State.additions (s : State) (c : Compartment) (t : ZoneTable) (outward : List Nat) : Nat :=
  (outward.takeWhile fun z => s.isFree c z && !t.barred z).length

/-- The free zones the span overlaps are added to a tripped hoist's run, outward from each of its ends (R77). R77 starts at the
run's end; an empty run, which R62 gives no supervised hoist, has none and gains no zone (DESIGN CHOICE, log 31). -/
def State.addAtTrip (s : State) (h : HoistId) : State :=
  let r := s.hoist h
  match r.config, r.run, s.claimZones h with
  | some k, some run, some x =>
    let t := (s.comp k.compartment).committed
    let below := s.additions k.compartment t (List.range' (run.bottom + 1) (x.bottom - run.bottom))
    let above := s.additions k.compartment t (List.range' x.top (run.top - x.top)).reverse
    if below = 0 ∧ above = 0 then s
    else (s.setHoist h { r with run := some ⟨run.top - above, run.bottom + below⟩ }).recompute h
  | _, _, _ => s

end Sys2Proof.Machine
end

