-- ==== Sys2Proof/Machine/Records.lean ====
section
/-! DEFINITION. Move records and their queue (R166 to R169). -/

namespace Sys2Proof.Machine

/-- The record of a move, from the values that stand: those after the event ending the move has made its own changes
(R167). -/
def State.recordOf (s : State) (h : HoistId) (m : Move) (outcome : MoveOutcome) : MoveRecord where
  hoist := h
  outcome := outcome
  startDepth := m.startDepth
  endDepth := (s.hoist h).depth
  target := m.target
  travelled := (s.hoist h).travel
  carried := (s.hoist h).carried
  waited := m.waited
  clamped := m.clamped
  degraded := m.degraded
  duration := min Config.maxDuration ((s.now - m.startTime) / 100)

/-- A record joins the queue, or is discarded with OVERFLOW set when the queue is full; RECORDS is latched either way.
With logging off nothing happens (R168, R169). -/
def State.appendRecord (s : State) (rec : MoveRecord) : State :=
  if s.logging = false then s
  else if s.records.length < Config.recordCapacity then
    State.latch { s with records := s.records ++ [rec] } .records
  else State.latch { s with overflow := true } .records

/-- RECORDS is latched again after the clear of STATUS while its cause persists (R117). -/
def State.relatchRecords (s : State) : State :=
  if s.records ≠ [] ∨ s.overflow = true then s.latch .records else s

end Sys2Proof.Machine
end

