-- ==== Sys2Proof/Machine/Sequencer.lean ====
section
/-! DEFINITION. Hoist states and what a change of state does (R33, R36, R37, R106, R112), move ends (R45), stopping
(R48, R72) and the DEMANDs forwarded (R38, R97, R98). -/

namespace Sys2Proof.Machine

/-- A hoist in a new state. The demand-age timer starts on entry to the watched states from outside them, runs on between
them and stops on leaving them (R33). The engage timer runs in ENGAGING and PARKING, started afresh on entry (R40 to
R43, R47). The proof timer runs in PROVING (R162 to R164, R53). The stop allowance is set on entry to STOPPING and
absent elsewhere (R106). The trip line is open in TRIPPED and UNCONFIGURED (R112). -/
def Hoist.inState (r : Hoist) (now : Nat) (t : TimerSettings) (st : HoistState) : Hoist :=
  { r with
    state := st
    tripLineOpen := st.lineOpen
    engageTimer := if st.timesEngage = true then some (now + 1000 * t.engageLimit) else none
    demandTimer :=
      if st.watched = true then
        if r.state.watched = true then r.demandTimer else some (now + t.staleLimit)
      else none
    proofTimer := if st = .proving then some (now + 1000 * t.proofLimit) else none
    stopAllowance := if st = .stopping then some r.speed.natAbs else none }

/-- A hoist enters a state, and its envelope is recomputed (R91). -/
def State.enter (s : State) (h : HoistId) (st : HoistState) : State :=
  (s.modHoist h fun r => r.inState s.now s.timers st).recompute h

/-- The move part is marked closed (R45). -/
def State.markClosed (s : State) (h : HoistId) : State :=
  s.modHoist h fun r => r.modMove fun m => { m with isOpen := false }

/-- The record of the hoist's move, with its outcome and the values that stand, goes to the queue (R167, R168). -/
def State.logMove (s : State) (h : HoistId) (outcome : MoveOutcome) : State :=
  match (s.hoist h).move with
  | some m => s.appendRecord (s.recordOf h m outcome)
  | none => s

/-- The record of a move that has ended, where one has (R168). -/
def State.logEnd (s : State) (h : HoistId) : Option MoveOutcome → State
  | some outcome => s.logMove h outcome
  | none => s

/-- An open move that a trip ends is marked closed, and its record is appended at once (R45, R110, R168). -/
def State.closeMove (s : State) (h : HoistId) (outcome : MoveOutcome) : State :=
  if (s.hoist h).moveOpen = true then (s.markClosed h).logMove h outcome else s

/-- A move ends ARRIVED, STOPPED or STALE: closed, its extent cleared and its run trimmed about the hoist, and the hoist
in its next state (R45, R47, R50, R75). Its record follows once the REPORT that ends it has made its other changes (R167;
DEDUCED, log 12). -/
def State.endMove (s : State) (h : HoistId) (next : HoistState) : State :=
  (((s.markClosed h).clearExtent h).trimAtMoveEnd h).enter h next

/-- A cause of stopping reaches a hoist: a MOVING one enters STOPPING with the reason, and its extent is cleared; any
other is not acted on (R48, R72). -/
def State.stopHoist (s : State) (h : HoistId) (reason : StopReason) : State :=
  if (s.hoist h).state = .moving then
    ((s.clearExtent h).modHoist h fun r => r.modMove fun m => { m with stopReason := some reason }).enter h .stopping
  else s

/-- The MOVING hoists of a list enter STOPPING with reason STOPPED (R59, R111). -/
def State.stopAll (s : State) (hs : List HoistId) : State := hs.foldl (fun s h => s.stopHoist h .stopped) s

/-- How many hoists of a list are MOVING (R59). -/
def State.countMoving (s : State) (hs : List HoistId) : Nat :=
  (hs.filter fun h => (s.hoist h).state == .moving).length

/-- The demand-age timer restarts while it runs (R33). -/
def State.restartDemandTimer (s : State) (h : HoistId) : State :=
  s.modHoist h fun r => { r with demandTimer := r.demandTimer.map fun _ => s.now + s.timers.staleLimit }

/-- A DEMAND of a hoist with the given velocity is supervised: the frame goes down with the mode its state gives and the
velocity the clamp gives (R38, R39, R95), the EC keeps both velocity and reason (R97), a failed phase match of a nonzero
demand latches MISMATCH (R39), and an ENVELOPE reason of a MOVING hoist sets CLAMPED and latches CLAMP (R98). -/
def State.superviseDemand (s : State) (h : HoistId) (demanded : Int) : State :=
  let r := s.hoist h
  let velocity := r.forwardedVelocity demanded
  let reason := r.clampReason demanded
  let s := s.modHoist h fun r => { r with lastVelocity := velocity, lastReason := reason }
  let s := if reason = .mismatch then s.latch .mismatch else s
  let s :=
    if reason = .envelope ∧ r.state = .moving then
      (s.modHoist h fun r => r.modMove fun m => { m with clamped := true }).latch .clamp
    else s
  s.give .field
    (makeFrame r.station kindDemand (num8 r.state.forwardedMode.code ++ int16 velocity))

end Sys2Proof.Machine
end

