-- ==== Sys2Proof/Machine/Trips.lean ====
section
/-! DEFINITION. Trips (R104, R109 to R112) and the tests the TA makes on a REPORT (R105 to R108). -/

namespace Sys2Proof.Machine

/-- The cause of a timer of the hoist that has fallen due and is still to be taken: a park timeout, or a demand-age expiry in
MOVING (R109). -/
def Hoist.causeDue (r : Hoist) (now : Nat) : Option TripCause :=
  match r.state with
  | .parking => if due now r.engageTimer = true then some .parkFail else none
  | .moving => if due now r.demandTimer = true then some .stale else none
  | _ => none

/-- The cause that a trip for `cause` leaves to be taken second (R109; log 29). -/
def Hoist.overtakenBy (r : Hoist) (now : Nat) (cause : TripCause) : Option TripCause :=
  if r.causeDue now = some cause then none else r.causeDue now

/-- A trip cause reaches a hoist. In a supervised state other than TRIPPED the hoist trips, apart from its compartment's
trip scope; a TRIPPED hoist latches TRIP again; in any other state nothing happens (R104, R110). A timer's cause that the trip
has overtaken is kept for R109 (log 29). -/
def State.tripHoist (s : State) (h : HoistId) (cause : TripCause) : State :=
  if (s.hoist h).state = .tripped then s.latch .trip
  else if (s.hoist h).state.supervised = true then
    let s := (s.modHoist h fun r => { r with tripCause := some cause, overtaken := r.overtakenBy s.now cause }).enter h .tripped
    let s := (s.latch .trip).closeMove h .tripped
    (s.clearExtent h).addAtTrip h
  else s

/-- A timer's cause taken now was due when the hoist tripped for another, and finds it TRIPPED (R109; log 29). -/
def State.comesSecond (s : State) (h : HoistId) (cause : TripCause) : Bool :=
  (s.hoist h).state == .tripped && (s.hoist h).overtaken == some cause

/-- A cause taken second latches TRIP again (R104, R109). -/
def State.takeSecond (s : State) (h : HoistId) : State := (s.modHoist h fun r => { r with overtaken := none }).latch .trip

/-- A hoist that a cause would trip (R104). -/
def State.canTrip (s : State) (h : HoistId) : Bool :=
  (s.hoist h).state.supervised && (s.hoist h).state != .tripped

/-- The trip scope of a tripped hoist's compartment, read at the trip (R111). -/
def State.applyTripScope (s : State) (h : HoistId) : State :=
  match (s.hoist h).config with
  | some k =>
    match (s.comp k.compartment).tripScope with
    | .stopNeighbours => s.stopAll (s.hoistsOf k.compartment)
    | .isolate => s
  | none => s

/-- A trip cause passed by another block: the trip and then the trip scope (R110, R111). -/
def State.trip (s : State) (h : HoistId) (cause : TripCause) : State :=
  let out := s.tripHoist h cause
  if s.canTrip h = true then out.applyTripScope h else out

/-! ## The tests on a REPORT -/

/-- The reference envelope in the reported direction (R105). -/
def Hoist.reference (r : Hoist) : Nat := if 0 < r.speed then r.refDown else r.refUp

/-- The stop allowance as a REPORT lowers it: by a times the milliseconds since the previous REPORT, divided by 1,000
(R106). -/
def Hoist.loweredAllowance (r : Hoist) (elapsed : Nat) : Nat :=
  match r.stopAllowance with
  | some x => x - r.decel * elapsed / 1000
  | none => 0

/-- The overspeed limit of a REPORT (R105, R106). -/
def Hoist.speedLimit (r : Hoist) (margin elapsed : Nat) : Nat :=
  if r.state = .stopping then max (r.loweredAllowance elapsed + margin) (r.reference + margin)
  else r.reference + margin

/-- The states in which the overspeed test is made (R105). -/
def HoistState.testsOverspeed : HoistState → Bool
  | .ready => true
  | .moving => true
  | .stopping => true
  | .unconfigured => false
  | .releasedLocal => false
  | .parked => false
  | .proving => false
  | .engaging => false
  | .docked => false
  | .parking => false
  | .tripped => false

/-- The overspeed test; a reported speed of 0 is not tested (R105, R106). -/
def Hoist.overspeeds (r : Hoist) (margin elapsed : Nat) : Bool :=
  r.state.testsOverspeed && r.speed != 0 && decide (r.speedLimit margin elapsed < r.speed.natAbs)

/-- A pair of hoists fails the separation test: the top of the lower-ranked span less the C of the upper is under the
minimum (R107). -/
def tooClose (minimum : Nat) (upper lower : Hoist) : Bool := decide ((lower.spanTop : Int) - upper.depth < minimum)

/-- The pair fails, whichever of the two is the upper (R107). -/
def pairFails (minimum : Nat) (x y : Hoist) : Bool :=
  if x.rank < y.rank then tooClose minimum x y else tooClose minimum y x

/-- The other supervised hoists of the compartment with which the reporting hoist fails the separation test (R107), in
the order of their numbers (DESIGN CHOICE, log 13). -/
def State.tooCloseTo (s : State) (h : HoistId) : List HoistId :=
  let r := s.hoist h
  match r.config with
  | some k =>
    if r.state.supervised = true then
      (s.hoistsOf k.compartment).filter fun x =>
        x != h && (s.hoist x).state.supervised && pairFails s.shaft.separation r (s.hoist x)
    else []
  | none => []

/-- The drive fault test (R108). -/
def Hoist.driveFaults (r : Hoist) : Bool :=
  r.state.supervised &&
    match r.latest with
    | some l => l.fault != 0 && l.brake == .lifted
    | none => false

/-- The causes a REPORT yields for its hoist, in the order of R109. -/
def State.reportCauses (s : State) (h : HoistId) (elapsed : Nat) : List TripCause :=
  let r := s.hoist h
  (if s.overtravels h = true then [.overtravel] else []) ++
    (if r.overspeeds s.timers.overspeedMargin elapsed = true then [.overspeed] else []) ++
    (if s.tooCloseTo h = [] then [] else [.separation]) ++
    (if r.driveFaults = true then [.driveFault] else [])

/-- After a REPORT taken in STOPPING the allowance is the lesser of the lowered allowance and the reported magnitude
(R106). -/
def State.lowerAllowance (s : State) (h : HoistId) (elapsed : Nat) : State :=
  s.modHoist h fun r =>
    if r.state = .stopping then
      { r with stopAllowance := some (min (r.loweredAllowance elapsed) r.speed.natAbs) }
    else r

/-- The tests of a REPORT acted on: the reporting hoist trips for the first cause, each partner of a failed separation
test trips in turn, and the trip scope is applied once, after the trips (R109 to R111, R168). -/
def State.actOnTests (s : State) (h : HoistId) (elapsed : Nat) : State :=
  let causes := s.reportCauses h elapsed
  let partners := s.tooCloseTo h
  let tripped := (causes != [] && s.canTrip h) || partners.any fun x => s.canTrip x
  let s := s.lowerAllowance h elapsed
  let s :=
    match causes with
    | c :: _ => s.tripHoist h c
    | [] => s
  let s := partners.foldl (fun s x => s.tripHoist x .separation) s
  if tripped = true then s.applyTripScope h else s

end Sys2Proof.Machine
end

