-- ==== Sys2Proof/Machine/Tracker.lean ====
section
/-! DEFINITION. What the CT takes from a REPORT and derives from it (R24 to R31), and the EC's reference copy (R92). -/

namespace Sys2Proof.Machine

/-- The figure the part uses for a mass: the measured weight when present, otherwise the nominal weight (R141). A mass
with neither is named nowhere (R142) and counts 0 (log 17). -/
def Mass.weight (m : Mass) : Nat :=
  match m.measured with
  | some w => w
  | none =>
    match m.nominal with
    | some w => w
    | none => 0

/-- Rope length L, in metres (R26). -/
def ropeLength (k : HoistConfig) (drumDepth : Nat) : Nat := drumDepth / 1000 + k.sheaveOffset

/-- Suspended load W (R27). -/
def State.suspendedLoad (s : State) (k : HoistConfig) (carried : Carried) (load : Nat) : Nat :=
  match carried with
  | .none => k.tare
  | .mass m => k.tare + (s.mass m).weight
  | .unknownLoad => load

/-- Stretch S (R28). -/
def stretchOf (k : HoistConfig) (suspended rope : Nat) : Nat :=
  min (suspended * rope * k.ropeCoeff / 100000) k.stretchCap

/-- Conveyance depth C (R29). -/
def depthOf (floor drumDepth stretch : Nat) : Nat := min (drumDepth + stretch) floor

/-- The latest REPORT with its derived values (R24 to R29). -/
def State.takeFields (s : State) (k : HoistConfig) (carried : Carried) (w : ReportWire) : Latest :=
  let load := min w.load.toNat Config.maxLoad
  let rope := ropeLength k w.drumDepth.toNat
  let suspended := s.suspendedLoad k carried load
  let stretch := stretchOf k suspended rope
  let depth := depthOf s.shaft.floor w.drumDepth.toNat stretch
  { drumDepth := w.drumDepth.toNat
    speed := w.speed.toInt
    mode := driveModeOf w.mode
    brake := if w.flags.getLsbD 0 = true then .lifted else .set
    torqueProven := w.flags.getLsbD 1
    proofResult := proofResultOf w.flags
    envWarning := w.flags.getLsbD 2
    load := load
    fault := w.fault.toNat
    ropeLength := rope
    suspended := suspended
    stretch := stretch
    depth := depth
    spanTop := depth - k.height }

/-- The travel accumulator while a move is open: the change of C without sign, saturating (R30). -/
def Hoist.travelTo (r : Hoist) (depth : Nat) : Nat :=
  if r.moveOpen = true then min Config.maxTravel (r.travel + ((depth : Int) - r.depth).natAbs) else r.travel

/-- The CT takes a REPORT of a configured hoist (R24, R25, R30, R31). The TA keeps its time (R103). -/
def State.trackReport (s : State) (h : HoistId) (w : ReportWire) : State :=
  match (s.hoist h).config with
  | some k =>
    s.modHoist h fun r =>
      let l := s.takeFields k r.carried w
      { r with
        latest := some l
        travel := r.travelTo l.depth
        freshness := .fresh
        reportTimer := some (s.now + s.timers.reportLimit)
        lastReportTime := some s.now }
  | none => s

/-- Before the fields are taken, the envelopes are copied into the reference envelope (R92). -/
def State.copyReference (s : State) (h : HoistId) : State :=
  s.modHoist h fun r => { r with refDown := r.envDown, refUp := r.envUp }

/-- Milliseconds since the hoist's previous REPORT (R106); 0 with none (log 17). -/
def State.sinceReport (s : State) (h : HoistId) : Nat :=
  match (s.hoist h).lastReportTime with
  | some t => s.now - t
  | none => 0

end Sys2Proof.Machine
end

