-- ==== Sys2Proof/Machine/Proof.lean ====
section
/-! DEFINITION. Brake proof status (R159, R160) and the proof result of a REPORT (R163, R165). -/

namespace Sys2Proof.Machine

/-- The effective interval: halved while the latest REPORT shows the environment warning (R159). -/
def Hoist.effectiveInterval (r : Hoist) (interval : Nat) : Nat :=
  match r.latest with
  | some l => if l.envWarning = true then interval / 2 else interval
  | none => interval

/-- The proof status from the elapsed time and the effective interval (R159). -/
def proofStatusOf (elapsed effective : Nat) : ProofStatus :=
  if elapsed < effective then .current else if elapsed < 2 * effective then .due else .lapsed

/-- The proof status as evaluated now (R159). -/
def State.evaluatedStatus (s : State) (r : Hoist) : ProofStatus :=
  match r.lastPass with
  | some p => proofStatusOf (s.seconds - p) (r.effectiveInterval s.proofInterval)
  | none => .lapsed

/-- DEGRADED is set on the hoist's move part and PROOF is latched (R160). -/
def State.degrade (s : State) (h : HoistId) : State :=
  (s.modHoist h fun r => r.modMove fun m => { m with degraded := true }).latch .proof

/-- The status of a hoist is evaluated, and a change is handed on: the envelope is recomputed, and a move open while the
status becomes DUE or LAPSED is degraded (R159, R160). -/
def State.evaluateProof (s : State) (h : HoistId) : State :=
  let st := s.evaluatedStatus (s.hoist h)
  if st = (s.hoist h).proofStatus then s
  else
    let s := (s.modHoist h fun r => { r with proofStatus := st }).recompute h
    if st ≠ .current ∧ (s.hoist h).moveOpen = true then s.degrade h else s

/-- The status of every hoist is evaluated (R158, R159). -/
def State.evaluateAll (s : State) : State := allHoists.foldl (fun s h => s.evaluateProof h) s

/-- The proof result of a REPORT of a hoist still PROVING (R163); in any other state it is ignored (R165). -/
def State.takeProofResult (s : State) (h : HoistId) : State :=
  let r := s.hoist h
  if r.state = .proving then
    match r.latest with
    | some l =>
      match l.proofResult with
      | .none => s
      | .pass => (s.enter h .parked).modHoist h fun r => { r with lastPass := some s.seconds }
      | .fail => s.trip h .proofFail
    | none => s
  else s

end Sys2Proof.Machine
end

