-- ==== Sys2Proof/Machine/Registry.lean ====
section
/-! DEFINITION. Slots and mass records (R119 to R121, R141, R142), the ways a mass leaves a place (R130, R144, R154),
weighing (R150, R151) and the reconciliation of a survey (R154). -/

namespace Sys2Proof.Machine

/-! ## Slots -/

/-- The slot's state; a slot a landing does not have reads EMPTY (log 17). -/
def State.slotAt (s : State) (l : LandingId) (i : Nat) : SlotState :=
  match (s.landing l).record with
  | some rec => rec.slots.getD i .empty
  | none => .empty

/-- The record of a defined landing changes; an undefined landing has none. -/
def State.modRecord (s : State) (l : LandingId) (f : LandingRec → LandingRec) : State :=
  s.modLanding l fun x => { x with record := x.record.map f }

def State.setSlot (s : State) (l : LandingId) (i : Nat) (st : SlotState) : State :=
  s.modRecord l fun rec => { rec with slots := rec.slots.set i st }

/-- The slots a scan visits, in order, from the slot pointer (R121). -/
def LandingRec.scan (rec : LandingRec) : List Nat :=
  let n := rec.slots.length
  (List.range n).map fun i =>
    match rec.orderMode with
    | .sequential => (rec.pointer + i) % n
    | .interleaved => rec.pointer ^^^ i

/-! ## Masses and their places -/

/-- A mass's location or expected location (R141). -/
def MassStatus.place : MassStatus → Option Place
  | .absent => none
  | .placed p => some p
  | .uncertain p => p

/-- PLACED or UNCERTAIN. -/
def MassStatus.present : MassStatus → Bool
  | .absent => false
  | .placed _ => true
  | .uncertain _ => true

def State.setStatus (s : State) (m : MassId) (st : MassStatus) : State := s.modMass m fun r => { r with status := st }

def State.setCarried (s : State) (h : HoistId) (c : Carried) : State := s.modHoist h fun r => { r with carried := c }

def State.setWeighPending (s : State) (h : HoistId) (b : Bool) : State :=
  s.modHoist h fun r => { r with weighPending := b }

/-- The slot as it is left when the mass it names is found elsewhere: its former place is doubted (R130, R154). -/
def SlotState.doubt (st : SlotState) (t : MassId) : SlotState :=
  match st with
  | .occupied x => if x = t then .unverified none else st
  | .unverified (some x) => if x = t then .unverified none else st
  | .blocked (some x) => if x = t then .blocked none else st
  | .unverified none => st
  | .blocked none => st
  | .reserved _ => st
  | .empty => st

/-- The slot as it is left when its mass is declared again or removed (R144). -/
def SlotState.vacate (st : SlotState) (t : MassId) : SlotState :=
  match st with
  | .occupied x => if x = t then .empty else st
  | .unverified (some x) => if x = t then .unverified none else st
  | .blocked (some x) => if x = t then .blocked none else st
  | .unverified none => st
  | .blocked none => st
  | .reserved _ => st
  | .empty => st

/-- The former place of a mass found elsewhere: a slot is doubted, a hoist carrying it becomes UNKNOWN_LOAD (R130,
R154). The place is the one the mass record names (R142; log 20). -/
def State.doubtPlace (s : State) (t : MassId) : State :=
  match (s.mass t).status.place with
  | some (.slot l i) => s.setSlot l i ((s.slotAt l i).doubt t)
  | some (.hoist h) => if (s.hoist h).carried = .mass t then s.setCarried h .unknownLoad else s
  | none => s

/-- The previous place of a mass declared again or removed (R144). -/
def State.vacatePlace (s : State) (t : MassId) : State :=
  match (s.mass t).status.place with
  | some (.slot l i) => s.setSlot l i ((s.slotAt l i).vacate t)
  | some (.hoist h) => if (s.hoist h).carried = .mass t then s.setCarried h .none else s
  | none => s

/-- The open handovers, landing by landing in queue order (R125). -/
def State.handovers (s : State) : List Handover := allLandings.flatMap fun l => (s.landing l).queue

/-- A mass is the mass of an open handover (R123, R130, R154). -/
def State.massInHandover (s : State) (m : MassId) : Bool := s.handovers.any fun v => v.mass == some m

/-- A mass is the mass of an open handover of another hoist (R123, R130). -/
def State.massInOtherHandover (s : State) (h : HoistId) (m : MassId) : Bool :=
  s.handovers.any fun v => v.hoist != h && v.mass == some m

/-- The mass a tag names when it counts as declared: in 1 to 96, PLACED or UNCERTAIN, and not the mass of an open handover
that excludes it (R130, R154). -/
def State.declaredTag (s : State) (excluded : MassId → Bool) (tag : Byte) : Option MassId :=
  match massOf tag with
  | some t => if (s.mass t).status.present = true ∧ excluded t = false then some t else none
  | none => none

/-! ## Weighing -/

/-- The net of a weighing: the REPORT's load less the tare, floored at 0 (R151). -/
def Hoist.netLoad (r : Hoist) : Nat :=
  match r.latest with
  | some l => l.load - r.tare
  | none => 0

/-- A measured weight is out of tolerance: it differs from the nominal weight by more than the nominal times the
tolerance divided by 100 (R151). R141 names the measured weight, when present, as the figure of the tolerance; R151, the rule
of the weighing, says that an earlier one is not used, and is followed (DEDUCED, log 32). -/
def outOfTolerance (nominal tolerance net : Nat) : Bool :=
  decide (nominal * tolerance / 100 < ((net : Int) - nominal).natAbs)

/-- A weighing, with the weigh-pending flag cleared (R151). -/
def State.weigh (s : State) (h : HoistId) : State :=
  let r := s.hoist h
  let net := r.netLoad
  let s :=
    if net < Config.emptyThreshold then
      match r.carried with
      | .none => s
      | .mass m => ((s.setCarried h .none).setStatus m (.uncertain none)).latch .weight
      | .unknownLoad => (s.setCarried h .none).latch .weight
    else
      match r.carried with
      | .none => (s.setCarried h .unknownLoad).latch .weight
      | .mass m =>
        let nominal := (s.mass m).nominal.getD 0
        let s := s.modMass m fun x => { x with measured := some net, status := .placed (.hoist h) }
        if outOfTolerance nominal s.timers.weightTolerance net = true then s.latch .weight else s
      | .unknownLoad => s.latch .weight
  s.setWeighPending h false

/-- A weighing is taken at a REPORT that finds the flag set, the speed 0, and the hoist READY once the HS has acted
(R150). -/
def Hoist.weighsNow (r : Hoist) : Bool := r.weighPending && r.speed == 0 && r.state == .ready

def State.weighIfDue (s : State) (h : HoistId) : State := if (s.hoist h).weighsNow = true then s.weigh h else s

/-! ## Surveys -/

/-- The mass a slot no longer names is lost, if its place was still this slot (R154). -/
def State.loseMass (s : State) (here : Place) (e : Option MassId) (kept : Option MassId) : State :=
  match e with
  | some m => if kept ≠ some m ∧ (s.mass m).status.place = some here then s.setStatus m (.uncertain none) else s
  | none => s

/-- What a survey code makes of a slot that is not BLOCKED and names `e` (R154). -/
def State.applyCode (s : State) (l : LandingId) (i : Nat) (e : Option MassId) (code : Byte) : State :=
  let here := Place.slot l i
  if code = 0 then s.setSlot l i .empty
  else if code = 255 then
    let s := s.setSlot l i (.blocked e)
    match e with
    | some m => s.setStatus m (.uncertain (some here))
    | none => s
  else
    match s.declaredTag s.massInHandover code with
    | some t =>
      match (s.mass t).status with
      | .placed p =>
        if p = here then ((s.doubtPlace t).setSlot l i (.occupied t)).setStatus t (.placed here)
        else ((s.doubtPlace t).setSlot l i (.blocked (some t))).setStatus t (.uncertain (some here))
      | _ => ((s.doubtPlace t).setSlot l i (.occupied t)).setStatus t (.placed here)
    | none => s.setSlot l i (.blocked none)

/-- One slot is reconciled with its code; a finding that does not agree with the records latches VERIFY (R154). Where the code
is the slot's own mass and that mass is the mass of an open handover, R154's table blocks the slot with nothing, and the finding
agrees and latches nothing, though R154 then says OCCUPIED: DESIGN CHOICE, log 33 (unsafe). -/
def State.reconcileSlot (s : State) (l : LandingId) (i : Nat) (code : Byte) : State :=
  match s.slotAt l i with
  | .blocked _ => s
  | st =>
    let e := st.names
    let s := s.applyCode l i e code
    let s := s.loseMass (.slot l i) e (s.slotAt l i).names
    if massCode e = code.toNat then s else s.latch .verify

/-- The slots are reconciled in index order (R154). -/
def State.reconcile (s : State) (l : LandingId) (codes : List Byte) : State :=
  codes.zipIdx.foldl (fun s x => s.reconcileSlot l x.2 x.1) s

end Sys2Proof.Machine
end

