-- ==== Sys2Proof/Machine/Handover.lean ====
section
/-! DEFINITION. The shuttle arbiter (R126, R127), the phases of a handover (R128 to R135) and the survey as a holder of
the shuttle (R152, R153). -/

namespace Sys2Proof.Machine

/-! ## Requests to a shuttle -/

/-- The requests of SHUTTLE_REQ (R186). -/
inductive ShuttleRequest where
  | latch
  | pushToSlot
  | pullFromSlot
  | unlatch
  | survey
deriving DecidableEq, Repr

def ShuttleRequest.code : ShuttleRequest → Nat
  | .latch => 1
  | .pushToSlot => 2
  | .pullFromSlot => 3
  | .unlatch => 4
  | .survey => 5

/-- The address of a landing's shuttle station; 0 while the landing is undefined (log 17). -/
def Landing.stationByte (x : Landing) : Byte :=
  match x.record with
  | some rec => byte rec.station
  | none => 0

/-- The compartment of a hoist as the side of a request; A while the hoist is not configured (log 17). -/
def Hoist.side (r : Hoist) : Nat :=
  match r.config with
  | some k => k.compartment.code
  | none => 0

/-- A SHUTTLE_REQ to a landing's shuttle station (R178, R186). -/
def State.request (s : State) (l : LandingId) (q : ShuttleRequest) (side slot : Nat) : State :=
  s.give .field
    (makeFrame (s.landing l).stationByte kindShuttleReq (num8 q.code ++ num8 side ++ num8 slot))

/-- A SHUTTLE_REQ of a handover: its hoist's compartment as side, and its slot (R127). -/
def State.requestFor (s : State) (l : LandingId) (v : Handover) (q : ShuttleRequest) : State :=
  s.request l q (s.hoist v.hoist).side (v.slot.getD 0)

/-! ## Handover records -/

/-- A hoist's handover record at a landing changes (R125). -/
def State.modHandover (s : State) (l : LandingId) (h : HoistId) (f : Handover → Handover) : State :=
  s.modLanding l fun x => { x with queue := x.queue.map fun v => if v.hoist = h then f v else v }

/-- The shuttle is free: no holder, and its state IDLE (R122). -/
def Landing.shuttleFree (x : Landing) : Bool := x.holder == .none && x.shuttle == .idle

/-- A handover is left waiting for the shuttle: its waited flag is set, and WAITED of its hoist's move part where there is
one (R124, R126). -/
def State.markWaited (s : State) (l : LandingId) (h : HoistId) : State :=
  (s.modHandover l h fun v => { v with waited := true }).modHoist h Hoist.setWaited

/-! ## Grant and close (R126, R127, R131) -/

/-- A slot that an AUTO choice by scan passes over: the slot of another open handover of the landing, or one that holds
the mass of another open handover (R121). -/
def State.passedOver (s : State) (l : LandingId) (h : HoistId) (i : Nat) : Bool :=
  ((s.landing l).queue.any fun v => v.hoist != h && v.slot == some i) ||
    match (s.slotAt l i).names with
    | some m => s.massInOtherHandover h m
    | none => false

/-- A slot that is OCCUPIED, with the mass it holds. -/
def SlotState.holding : SlotState → Option MassId
  | .occupied m => some m
  | .empty => none
  | .reserved _ => none
  | .unverified _ => none
  | .blocked _ => none

/-- The slot and mass of a handover at its grant, if a slot is found (R121, R127). -/
def State.chooseSlot (s : State) (l : LandingId) (rec : LandingRec) (v : Handover) : Option (Nat × MassId) :=
  match v.kind, v.slot, v.mass with
  | .deposit, some i, some m => if s.slotAt l i = .empty then some (i, m) else none
  | .deposit, none, some m =>
    match rec.scan.find? fun i => s.slotAt l i == .empty && !s.passedOver l v.hoist i with
    | some i => some (i, m)
    | none => none
  | .deposit, _, none => none
  | .collect, some i, some m => if s.slotAt l i = .occupied m then some (i, m) else none
  | .collect, some i, none => (s.slotAt l i).holding.map fun m => (i, m)
  | .collect, none, some m =>
    match (List.range rec.slots.length).find? fun i => s.slotAt l i == .occupied m with
    | some i => some (i, m)
    | none => none
  | .collect, none, none =>
    rec.scan.findSome? fun i =>
      if s.passedOver l v.hoist i = true then none else (s.slotAt l i).holding.map fun m => (i, m)

/-- Steps 1 to 5 of a close: the record leaves the queue, the holder becomes none if it held the shuttle, and a DOCKED
hoist returns to READY; a tripped one stays TRIPPED (R131). -/
def State.removeHandover (s : State) (l : LandingId) (h : HoistId) : State :=
  let s := s.modLanding l fun x =>
    { x with
      queue := x.queue.filter fun v => v.hoist != h
      holder := if x.holder = .handover h then .none else x.holder }
  if (s.hoist h).state = .docked then s.enter h .ready else s.recompute h

/-- The grant of the shuttle to a WAITING handover: the slot is chosen and RESERVED, LATCH goes out and the latch timer
starts; with no slot the handover closes FAILED and HANDOVER is latched (R127). -/
def State.grant (s : State) (l : LandingId) (v : Handover) : State :=
  let s := s.modLanding l fun x => { x with holder := .handover v.hoist }
  match (s.landing l).record with
  | some rec =>
    match s.chooseSlot l rec v with
    | some (i, m) =>
      let granted : Handover :=
        { v with slot := some i, mass := some m, phase := .latching,
                 timer := some (s.now + 1000 * s.timers.latchLimit) }
      ((s.setSlot l i (.reserved m)).modHandover l v.hoist fun _ => granted).requestFor l granted .latch
    | none => (s.latch .handover).removeHandover l v.hoist
  | none => (s.latch .handover).removeHandover l v.hoist

/-- Of two waiters, the one the arbiter grants: the greater shuttle precedence, then the higher-numbered hoist (R126). -/
def State.prefers (s : State) (v w : Handover) : Bool :=
  decide ((s.hoist w.hoist).precedence < (s.hoist v.hoist).precedence) ||
    ((s.hoist v.hoist).precedence == (s.hoist w.hoist).precedence && decide (w.hoist < v.hoist))

/-- The arbiter: while the shuttle is free and a handover waits, one is granted, and a loser is marked as having waited; a
grant that fails at slot choice leaves the shuttle free for the next waiter (R126, R127). It runs at most once for each
handover of the queue. -/
def State.arbiterFor (l : LandingId) : Nat → State → State
  | 0, s => s
  | n + 1, s =>
    if (s.landing l).shuttleFree = true then
      match (s.landing l).queue.filter fun v => v.phase == .waiting with
      | [] => s
      | v :: rest =>
        let winner := rest.foldl (fun best w => if s.prefers w best = true then w else best) v
        let losers := (v :: rest).filter fun w => w.hoist != winner.hoist
        let s := losers.foldl (fun s w => s.markWaited l w.hoist) s
        State.arbiterFor l n (s.grant l winner)
    else s

def State.arbiter (s : State) (l : LandingId) : State := State.arbiterFor l (s.landing l).queue.length s

/-- The close of a handover (R131). -/
def State.closeHandover (s : State) (l : LandingId) (h : HoistId) : State := (s.removeHandover l h).arbiter l

/-! ## Phases -/

/-- UNLATCH goes out, the phase becomes UNLATCHING and the timer restarts with the latch limit (R129, R132, R133,
R136). -/
def State.toUnlatching (s : State) (l : LandingId) (v : Handover) : State :=
  (s.modHandover l v.hoist fun x =>
    { x with phase := .unlatching, timer := some (s.now + 1000 * s.timers.latchLimit) }).requestFor l v .unlatch

/-- The handover's outcome is fixed and its record is settled (R125). -/
def State.settle (s : State) (l : LandingId) (h : HoistId) (outcome : HandoverOutcome) : State :=
  s.modHandover l h fun x => { x with outcome := some outcome, settled := true }

/-- The handover becomes STUCK and its timer stops; HANDOVER is latched (R134, R135). -/
def State.toStuck (s : State) (l : LandingId) (h : HoistId) : State :=
  (s.modHandover l h fun x => { x with phase := .stuck, timer := none }).latch .handover

/-- LATCHED in LATCHING (R128). -/
def State.toTransferring (s : State) (l : LandingId) (v : Handover) : State :=
  (s.modHandover l v.hoist fun x =>
    { x with phase := .transferring, timer := some (s.now + 1000 * s.timers.transferLimit) }).requestFor l v
      (match v.kind with
        | .deposit => .pushToSlot
        | .collect => .pullFromSlot)

/-- The reserved slot reverts (R132, R133). -/
def State.revertSlot (s : State) (l : LandingId) (v : Handover) : State :=
  match v.slot, v.mass, v.kind with
  | some i, some m, .collect => s.setSlot l i (.occupied m)
  | some i, _, .deposit => s.setSlot l i .empty
  | _, _, _ => s

/-- Abandonment or failure before the shuttle has latched (R132, R133). -/
def State.undoLatch (s : State) (l : LandingId) (v : Handover) (outcome : HandoverOutcome) : State :=
  ((s.revertSlot l v).settle l v.hoist outcome).toUnlatching l v

/-- Latch failure (R133). -/
def State.latchFailure (s : State) (l : LandingId) (v : Handover) : State :=
  (s.undoLatch l v .failed).latch .handover

/-- Transfer failure (R134). -/
def State.transferFailure (s : State) (l : LandingId) (v : Handover) : State :=
  let s :=
    match v.slot, v.mass with
    | some i, some m => (s.setStatus m (.uncertain (some (.slot l i)))).setSlot l i (.blocked (some m))
    | _, _ => s
  (s.setCarried v.hoist .unknownLoad).toStuck l v.hoist

/-- The records of a DONE whose tag is the handover's mass or unread (R129). -/
def State.applyTransfer (s : State) (l : LandingId) (v : Handover) (i : Nat) (m : MassId) : State :=
  match v.kind with
  | .deposit =>
    ((s.setSlot l i (.occupied m)).setCarried v.hoist .none).setStatus m (.placed (.slot l i))
  | .collect =>
    ((s.setSlot l i .empty).setCarried v.hoist (.mass m)).setStatus m (.placed (.hoist v.hoist))

/-- The records of a tag mismatch (R130). -/
def State.applyMismatch (s : State) (l : LandingId) (v : Handover) (i : Nat) (m : MassId) (tag : Byte) : State :=
  let s :=
    match s.declaredTag (s.massInOtherHandover v.hoist) tag with
    | some t =>
      let s := s.doubtPlace t
      match v.kind with
      | .deposit => (s.setSlot l i (.occupied t)).setStatus t (.placed (.slot l i))
      | .collect => (s.setCarried v.hoist (.mass t)).setStatus t (.placed (.hoist v.hoist))
    | none =>
      match v.kind with
      | .deposit => s.setSlot l i (.blocked none)
      | .collect => s.setCarried v.hoist .unknownLoad
  let s :=
    match v.kind with
    | .deposit => s.setCarried v.hoist .none
    | .collect => s.setSlot l i .empty
  (s.setStatus m (.uncertain none)).latch .tag

/-- DONE in TRANSFERRING: the records move, the weigh-pending flag and the slot pointer follow, and the shuttle is asked
to let go (R129, R130). -/
def State.transferDone (s : State) (l : LandingId) (v : Handover) (tag : Byte) : State :=
  match v.slot, v.mass with
  | some i, some m =>
    let s :=
      if tag = 0 ∨ tag.toNat = m.val + 1 then s.applyTransfer l v i m else s.applyMismatch l v i m tag
    let s := s.setWeighPending v.hoist (v.kind == .collect)
    let s := s.modRecord l fun rec => { rec with pointer := (i + 1) % rec.slots.length }
    (s.settle l v.hoist .done).toUnlatching l v
  | _, _ => s

/-- A SHUTTLE_REPORT acts on the handover that holds the shuttle, as its phase gives (R128 to R135). -/
def State.reportToHandover (s : State) (l : LandingId) (v : Handover) (st : ShuttleState) (tag : Byte) : State :=
  match v.phase, st with
  | .latching, .latched => s.toTransferring l v
  | .latching, .fault => s.latchFailure l v
  | .transferring, .done => s.transferDone l v tag
  | .transferring, .fault => s.transferFailure l v
  | .transferring, .idle => s.transferFailure l v
  | .unlatching, .idle => s.closeHandover l v.hoist
  | .unlatching, .fault => s.toStuck l v.hoist
  | _, _ => s

/-- The expiry of a handover's timer is a failure for its phase (R133 to R135). -/
def State.handoverTimeout (s : State) (l : LandingId) (v : Handover) : State :=
  match v.phase with
  | .latching => s.latchFailure l v
  | .transferring => s.transferFailure l v
  | .unlatching => s.toStuck l v.hoist
  | .waiting => s
  | .stuck => s

/-! ## The survey -/

/-- The survey ends: its timer stops, it becomes absent and the shuttle has no holder (R153); the arbiter runs if that
leaves the shuttle free (R126). -/
def State.endSurvey (s : State) (l : LandingId) : State :=
  (s.modLanding l fun x => { x with survey := false, surveyTimer := none, holder := .none }).arbiter l

/-- The survey fails: no record changes, VERIFY is latched (R153). -/
def State.surveyFailure (s : State) (l : LandingId) : State := (s.latch .verify).endSurvey l

/-- How many slots a landing has, N (R15). -/
def Landing.slotCount (x : Landing) : Nat :=
  match x.record with
  | some rec => rec.slots.length
  | none => 0

/-- A SHUTTLE_REPORT acts on the survey that holds the shuttle (R153). Codes beyond the first N are passed over. -/
def State.reportToSurvey (s : State) (l : LandingId) (st : ShuttleState) (codes : List Byte) : State :=
  let n := (s.landing l).slotCount
  match st with
  | .done => if n ≤ codes.length then (s.reconcile l (codes.take n)).endSurvey l else s.surveyFailure l
  | .fault => s.surveyFailure l
  | .idle => s
  | .latched => s
  | .busy => s
  | .unknown => s

/-! ## A SHUTTLE_REPORT of a defined landing -/

/-- The shuttle state becomes the state reported, and the report is handed to the shuttle's holder (R122). -/
def State.takeShuttleReport (s : State) (l : LandingId) (w : ShuttleWire) : State :=
  let st := shuttleStateOf w.state
  let s := s.modLanding l fun x => { x with shuttle := st }
  match (s.landing l).holder with
  | .handover h =>
    match (s.landing l).queue.find? fun v => v.hoist == h with
    | some v => s.reportToHandover l v st w.tag
    | none => s
  | .survey => s.reportToSurvey l st w.survey
  | .none => s.arbiter l

/-- The defined landing whose shuttle station has this address (R122, R178). -/
def State.shuttleAt (s : State) (address : Byte) : Option LandingId :=
  allLandings.find? fun l =>
    match (s.landing l).record with
    | some rec => rec.station == address.toNat
    | none => false

end Sys2Proof.Machine
end

