-- ==== Sys2Proof/Machine/Link.lean ====
section
/-! DEFINITION. What becomes of a whole frame (R174, R175), the codes and lengths of the orders (R180, R186), the
annex (R177) and the starts of the part (R179, R184, R185). -/

namespace Sys2Proof.Machine

/-! ## The fate of a frame -/

/-- A kind the part knows (R175, step 1). -/
def knownKind (k : Byte) : Bool :=
  [kindDemand, kindReport, kindProofReq, kindShuttleReq, kindShuttleReport, kindOrder, kindAnswer].contains k

/-- A known kind that is not dropped on the port it arrives on (R175, step 3). -/
def rightDirection (p : Port) (k : Byte) : Bool :=
  match p with
  | .uplink => k == kindDemand || k == kindOrder
  | .field => k == kindReport || k == kindShuttleReport

/-- The payload's length suits the kind (R175, step 4). -/
def lengthSuits (k : Byte) (payload : List Byte) : Bool :=
  if k = kindDemand then payload.length == 3
  else if k = kindReport then payload.length == 13
  else if k = kindProofReq then payload.length == 0
  else if k = kindShuttleReq then payload.length == 3
  else if k = kindShuttleReport then
    match payload with
    | _ :: _ :: _ :: count :: survey => decide (count.toNat ≤ 8) && survey.length == count.toNat
    | _ => false
  else if k = kindOrder then decide (2 ≤ payload.length)
  else true

/-- What becomes of a frame. -/
inductive Fate where
  | dropped (e : LinkError)
  | passed
  | handled
deriving DecidableEq, Repr

/-- The check and the steps of R175 in order; the first that applies decides (R174, R175). -/
def frameFate (p : Port) (f : Frame) : Fate :=
  if checkHolds f = false then .dropped .check
  else if knownKind f.kind = false then .passed
  else if f.address = 0 then .dropped .target
  else if rightDirection p f.kind = false then .dropped .target
  else if lengthSuits f.kind f.payload = false then .dropped .length
  else .handled

/-! ## Order codes (R186) -/

def codeShaftWrite : Byte := 0x01
def codeZoneWrite : Byte := 0x02
def codeZoneCommit : Byte := 0x03
def codeZoneQuery : Byte := 0x04
def codeLandingWrite : Byte := 0x05
def codeHoistConfig : Byte := 0x10
def codeHoistQuery : Byte := 0x11
def codeEngage : Byte := 0x12
def codePark : Byte := 0x13
def codeResetHoist : Byte := 0x14
def codeAbort : Byte := 0x15
def codeCeiling : Byte := 0x16
def codeGroupWrite : Byte := 0x17
def codeGroupCeiling : Byte := 0x18
def codeGroupStop : Byte := 0x19
def codeAllStop : Byte := 0x1A
def codeMove : Byte := 0x20
def codeTransfer : Byte := 0x30
def codeAbortTransfer : Byte := 0x31
def codeResolve : Byte := 0x32
def codeBlockSlot : Byte := 0x33
def codeUnblockSlot : Byte := 0x34
def codeLandingQuery : Byte := 0x35
def codeDeclareMass : Byte := 0x40
def codeRemoveMass : Byte := 0x41
def codeVerify : Byte := 0x42
def codeReleaseScope : Byte := 0x43
def codeAdmitScope : Byte := 0x44
def codeMassQuery : Byte := 0x45
def codeTallyQuery : Byte := 0x46
def codeProve : Byte := 0x50
def codeProofWrite : Byte := 0x51
def codeMaskWrite : Byte := 0x60
def codeScopeOptions : Byte := 0x61
def codeStatus : Byte := 0x62
def codeReadRecord : Byte := 0x70
def codeLogControl : Byte := 0x71
def codeTimerWrite : Byte := 0x7E
def codeRestart : Byte := 0x7F

/-- The order table: each code with the parameter lengths it takes (R186). -/
def orderTable : List (Byte × List Nat) :=
  [(codeShaftWrite, [12]), (codeZoneWrite, [10, 2]), (codeZoneCommit, [1]), (codeZoneQuery, [3]),
   (codeLandingWrite, [9]), (codeHoistConfig, [17]), (codeHoistQuery, [1]), (codeEngage, [1]), (codePark, [1]),
   (codeResetHoist, [1]), (codeAbort, [1]), (codeCeiling, [3]), (codeGroupWrite, [2]), (codeGroupCeiling, [3]),
   (codeGroupStop, [1]), (codeAllStop, [0]), (codeMove, [6]), (codeTransfer, [4]), (codeAbortTransfer, [1]),
   (codeResolve, [2]), (codeBlockSlot, [2]), (codeUnblockSlot, [2]), (codeLandingQuery, [1]),
   (codeDeclareMass, [6]), (codeRemoveMass, [1]), (codeVerify, [1]), (codeReleaseScope, [1]), (codeAdmitScope, [1]),
   (codeMassQuery, [1]), (codeTallyQuery, [0]), (codeProve, [1]), (codeProofWrite, [4]), (codeMaskWrite, [2]),
   (codeScopeOptions, [3]), (codeStatus, [0]), (codeReadRecord, [0]), (codeLogControl, [1]), (codeTimerWrite, [16]),
   (codeRestart, [0])]

/-- The parameter lengths the table gives a code; none for a code that is not in it (R180). -/
def orderLengths (code : Byte) : Option (List Nat) :=
  match orderTable.find? fun x => x.1 == code with
  | some x => some x.2
  | none => none

/-- How a consumed ORDER fails the order table: TARGET for an unknown code, RANGE for a wrong length; none when it passes
both checks (R180). -/
def orderFault (code : Byte) (params : List Byte) : Option Result :=
  match orderLengths code with
  | none => some .target
  | some ns => if ns.contains params.length = true then none else some .range

/-- An ALL_STOP with no parameters, the one order carried out when broadcast (R180). -/
def plainAllStop (code : Byte) (params : List Byte) : Bool := code == codeAllStop && params.isEmpty

/-! ## The annex (R177, R186) -/

/-- Run top and run bottom as the annex carries them (R63). -/
def State.runEnds (s : State) (r : Hoist) : Nat × Nat :=
  (runTop (s.tableOf r) r.run, runBottom (s.tableOf r) s.shaft.floor r.run)

/-- Stretch S (R28); 0 while the part holds no REPORT. -/
def Hoist.stretch (r : Hoist) : Nat :=
  match r.latest with
  | some l => l.stretch
  | none => 0

/-- WAITED of the open or last move, 0 with no move part (R177). -/
def Hoist.waitedFlag (r : Hoist) : Bool :=
  match r.move with
  | some m => m.waited
  | none => false

/-- The 27 annex bytes, every field as it stands now (R177, R186). -/
def State.annex (s : State) (h : HoistId) : List Byte :=
  let r := s.hoist h
  let ends := s.runEnds r
  num8 r.state.code ++ num32 r.depth ++ num16 r.stretch ++ num16 r.envDown ++ num16 r.envUp ++
    num32 ends.1 ++ num32 ends.2 ++ num8 r.carried.code ++ int16 r.lastVelocity ++ num8 r.lastReason.code ++
    bit8 r.waitedFlag ++ num8 r.proofStatus.code ++ be16 (s.latched.setWidth 16)

/-- The 13 payload bytes of a REPORT as they arrived (R186). -/
def reportBytes (w : ReportWire) : List Byte :=
  be32 w.drumDepth ++ be16 w.speed ++ [w.mode, w.flags] ++ be32 w.load ++ [w.fault]

/-- The payload bytes of a SHUTTLE_REPORT as they arrived (R186). -/
def shuttleBytes (w : ShuttleWire) : List Byte := [w.state, w.slot, w.tag, byte w.survey.length] ++ w.survey

/-! ## Starting afresh -/

/-- RESTART takes effect: every block takes its power-on values and the straps are read; frames already given to a port
are still sent, and a frame in reception goes on (R179, R184). The time base is 0 again (log 8). -/
def State.restarted (s : State) (straps : Straps) : State :=
  { State.powerOnWith straps with
    resetInput := s.resetInput
    uplinkReceiving := s.uplinkReceiving
    fieldReceiving := s.fieldReceiving
    outbox := s.outbox
    pending := s.pending }

end Sys2Proof.Machine
end

