-- ==== Sys2Proof/Decode.lean ====
section
/-! DEFINITION. How commands are spelled. The opcode table gives no row any bits, so no word spells a command. What the
spec does spell is frames: `frameCommand` reads the command that a frame on a port is (R175, R176 to R178, R180, R186),
and `commandFrame` is the frame a command arrives as. -/

namespace Sys2Proof

open Sys2Proof.Machine

/-- The command that a word spells by the table's bits: no row has bits. -/
def decodeTableWord (_nbits _w : Nat) : Option Instr := none

/-! ## Reading an ORDER -/

/-- One-byte parameter lists (R186). -/
def readOrder1 (o : OrderHead) (code a : Byte) : Option Instr :=
  if code = codeZoneCommit then some (.zoneCommit o a)
  else if code = codeHoistQuery then some (.hoistQuery o a)
  else if code = codeEngage then some (.engage o a)
  else if code = codePark then some (.park o a)
  else if code = codeResetHoist then some (.resetHoist o a)
  else if code = codeAbort then some (.abort o a)
  else if code = codeGroupStop then some (.groupStop o a)
  else if code = codeAbortTransfer then some (.abortTransfer o a)
  else if code = codeLandingQuery then some (.landingQuery o a)
  else if code = codeRemoveMass then some (.removeMass o a)
  else if code = codeVerify then some (.verify o a)
  else if code = codeReleaseScope then some (.releaseScope o a)
  else if code = codeAdmitScope then some (.admitScope o a)
  else if code = codeMassQuery then some (.massQuery o a)
  else if code = codeProve then some (.prove o a)
  else if code = codeLogControl then some (.logControl o a)
  else none

/-- No parameters (R186). RESTART reads the straps, so their level goes with it (R179). -/
def readOrder0 (pins : Straps) (o : OrderHead) (code : Byte) : Option Instr :=
  if code = codeAllStop then some (.allStop o)
  else if code = codeTallyQuery then some (.tallyQuery o)
  else if code = codeStatus then some (.status o)
  else if code = codeReadRecord then some (.readRecord o)
  else if code = codeRestart then some (.restart o pins)
  else none

/-- Two parameter bytes (R186). -/
def readOrder2 (o : OrderHead) (code a b : Byte) : Option Instr :=
  if code = codeZoneWrite then some (.zoneWriteCount o a b)
  else if code = codeGroupWrite then some (.groupWrite o a b)
  else if code = codeResolve then some (.resolve o a b)
  else if code = codeBlockSlot then some (.blockSlot o a b)
  else if code = codeUnblockSlot then some (.unblockSlot o a b)
  else if code = codeMaskWrite then some (.maskWrite o (read16 a b))
  else none

/-- Three parameter bytes (R186). -/
def readOrder3 (o : OrderHead) (code a b c : Byte) : Option Instr :=
  if code = codeZoneQuery then some (.zoneQuery o a b c)
  else if code = codeCeiling then some (.ceiling o a (read16 b c))
  else if code = codeGroupCeiling then some (.groupCeiling o a (read16 b c))
  else if code = codeScopeOptions then some (.scopeOptions o a b c)
  else none

/-- Four parameter bytes (R186). -/
def readOrder4 (o : OrderHead) (code a b c d : Byte) : Option Instr :=
  if code = codeTransfer then some (.transfer o a b c d)
  else if code = codeProofWrite then some (.proofWrite o (read16 a b) (read16 c d))
  else none

/-- Six parameter bytes (R186). -/
def readOrder6 (o : OrderHead) (code a b c d e f : Byte) : Option Instr :=
  if code = codeMove then some (.move o a (read32 b c d e) f)
  else if code = codeDeclareMass then some (.declareMass o a (read16 b c) d e f)
  else none

/-- An ORDER whose code and parameter length are in the table, as the command of its row (R186). A LANDING_WRITE with a
slot count of 0 is the removal (R18). -/
def readOrder (pins : Straps) (o : OrderHead) (code : Byte) (params : List Byte) : Option Instr :=
  match params with
  | [] => readOrder0 pins o code
  | [a] => readOrder1 o code a
  | [a, b] => readOrder2 o code a b
  | [a, b, c] => readOrder3 o code a b c
  | [a, b, c, d] => readOrder4 o code a b c d
  | [a, b, c, d, e, f] => readOrder6 o code a b c d e f
  | [a, b, c, d, e, f, g, h, i] =>
    if code = codeLandingWrite then
      if f = 0 then some (.landingRemove o a (read32 b c d e) g h i)
      else some (.landingWrite o a (read32 b c d e) f g h i)
    else none
  | [a, b, c, d, e, f, g, h, i, j] =>
    if code = codeZoneWrite then some (.zoneWriteEntry o a b (read32 c d e f) (read16 g h) i j) else none
  | [a, b, c, d, e, f, g, h, i, j, k, l] =>
    if code = codeShaftWrite then
      some (.shaftWrite o (read32 a b c d) (read32 e f g h) (read16 i j) (read16 k l))
    else none
  | [a, b, c, d, e, f, g, h, i, j, k, l, m, n, p, q] =>
    if code = codeTimerWrite then
      some (.timerWrite o
        { reportLimit := read16 a b
          staleLimit := read16 c d
          engageLimit := e
          arrivalTolerance := read16 f g
          overspeedMargin := read16 h i
          dockingWindow := j
          latchLimit := k
          transferLimit := read16 l m
          surveyLimit := n
          proofLimit := p
          weightTolerance := q })
    else none
  | [a, b, c, d, e, f, g, h, i, j, k, l, m, n, p, q, r] =>
    if code = codeHoistConfig then
      some (.hoistConfig o a
        { compartment := b
          rank := c
          driveStation := d
          tare := read16 e f
          height := read16 g h
          sheaveOffset := i
          ropeCoeff := j
          stretchCap := read16 k l
          decel := read16 m n
          defaultCeiling := read16 p q
          precedence := r })
    else none
  | _ => none

/-- A whole ORDER as a command, for a part whose strap address is `strap` (R180): the order of the table it spells; or
UNKNOWN_ORDER, when it is addressed to the part and fails the order table; or ORDER_DROPPED. -/
def orderCommand (strap pins : Straps) (o : OrderHead) (code : Byte) (params : List Byte) : Instr :=
  match readOrder pins o code params with
  | some i => i
  | none =>
    if ownStation strap = some o.address then .unknownOrder o code params else .orderDropped o code params

/-- A frame that passes every step of R175, as the command of its row; none for a payload whose form its kind does not
have. -/
def handledCommand (strap pins : Straps) (f : Frame) : Option Instr :=
  if f.kind = kindDemand then
    match f.payload with
    | [m, a, b] => some (.demand f.address m (read16 a b))
    | _ => none
  else if f.kind = kindReport then
    match f.payload with
    | [a, b, c, d, e, g, m, x, h, i, j, k, z] =>
      some (.report f.address
        { drumDepth := read32 a b c d
          speed := read16 e g
          mode := m
          flags := x
          load := read32 h i j k
          fault := z })
    | _ => none
  else if f.kind = kindShuttleReport then
    match f.payload with
    | st :: slot :: tag :: _ :: survey => some (.shuttleReport f.address ⟨st, slot, tag, survey⟩)
    | _ => none
  else if f.kind = kindOrder then
    match f.payload with
    | tag :: code :: params => some (orderCommand strap pins ⟨f.address, tag⟩ code params)
    | _ => none
  else none

/-- The command that a whole frame on a port is, for a part with the given strap address and strap pins (R174 to R180).
Every frame is one. -/
def frameCommand (strap pins : Straps) (p : Port) (f : Frame) : Instr :=
  match frameFate p f with
  | .dropped _ => .frameDropped p f
  | .passed => .framePassThrough p f
  | .handled =>
    match handledCommand strap pins f with
    | some i => i
    | none => .frameDropped p f

/-! ## The frame of a command -/

/-- An ORDER frame on the uplink (R186). -/
def orderFrame (o : OrderHead) (code : Byte) (params : List Byte) : Option (Port × Frame) :=
  some (.uplink, makeFrame o.address kindOrder (o.tag :: code :: params))

/-- The HOIST_CONFIG parameters after the hoist (R186). -/
def hoistParamBytes (p : HoistParams) : List Byte :=
  [p.compartment, p.rank, p.driveStation] ++ be16 p.tare ++ be16 p.height ++ [p.sheaveOffset, p.ropeCoeff] ++
    be16 p.stretchCap ++ be16 p.decel ++ be16 p.defaultCeiling ++ [p.precedence]

/-- The TIMER_WRITE parameters (R186). -/
def timerParamBytes (p : TimerParams) : List Byte :=
  be16 p.reportLimit ++ be16 p.staleLimit ++ [p.engageLimit] ++ be16 p.arrivalTolerance ++ be16 p.overspeedMargin ++
    [p.dockingWindow, p.latchLimit] ++ be16 p.transferLimit ++ [p.surveyLimit, p.proofLimit, p.weightTolerance]

/-- The frame a command arrives as, with its port (R186); none for the commands that are no whole frame. -/
def commandFrame : Instr → Option (Port × Frame)
  | .powerOn _ => none
  | .resetInputAssert => none
  | .resetInputRelease _ => none
  | .partialFrameDiscard _ => none
  | .frameDropped p f => some (p, f)
  | .framePassThrough p f => some (p, f)
  | .demand a m v => some (.uplink, makeFrame a kindDemand (m :: be16 v))
  | .report a w => some (.field, makeFrame a kindReport (reportBytes w))
  | .shuttleReport a w => some (.field, makeFrame a kindShuttleReport (shuttleBytes w))
  | .handoverTimerExpiry _ => none
  | .surveyTimerExpiry _ => none
  | .reportAgeExpiry _ => none
  | .demandAgeExpiry _ => none
  | .engageTimeout _ => none
  | .parkTimeout _ => none
  | .proofTimerExpiry _ => none
  | .secondTick => none
  | .unknownOrder o code params => orderFrame o code params
  | .orderDropped o code params => orderFrame o code params
  | .shaftWrite o f t g x => orderFrame o codeShaftWrite (be32 f ++ be32 t ++ be16 g ++ be16 x)
  | .zoneWriteEntry o c i u v k l => orderFrame o codeZoneWrite ([c, i] ++ be32 u ++ be16 v ++ [k, l])
  | .zoneWriteCount o c n => orderFrame o codeZoneWrite [c, n]
  | .zoneCommit o c => orderFrame o codeZoneCommit [c]
  | .zoneQuery o c t i => orderFrame o codeZoneQuery [c, t, i]
  | .landingWrite o l d n m v t => orderFrame o codeLandingWrite ([l] ++ be32 d ++ [n, m, v, t])
  | .landingRemove o l d m v t => orderFrame o codeLandingWrite ([l] ++ be32 d ++ [0, m, v, t])
  | .hoistConfig o h p => orderFrame o codeHoistConfig (h :: hoistParamBytes p)
  | .hoistQuery o h => orderFrame o codeHoistQuery [h]
  | .engage o h => orderFrame o codeEngage [h]
  | .park o h => orderFrame o codePark [h]
  | .move o h t p => orderFrame o codeMove ([h] ++ be32 t ++ [p])
  | .abort o h => orderFrame o codeAbort [h]
  | .resetHoist o h => orderFrame o codeResetHoist [h]
  | .ceiling o h v => orderFrame o codeCeiling (h :: be16 v)
  | .groupWrite o g x => orderFrame o codeGroupWrite [g, x]
  | .groupCeiling o g v => orderFrame o codeGroupCeiling (g :: be16 v)
  | .groupStop o g => orderFrame o codeGroupStop [g]
  | .allStop o => orderFrame o codeAllStop []
  | .transfer o h k x m => orderFrame o codeTransfer [h, k, x, m]
  | .abortTransfer o h => orderFrame o codeAbortTransfer [h]
  | .resolve o h x => orderFrame o codeResolve [h, x]
  | .blockSlot o l i => orderFrame o codeBlockSlot [l, i]
  | .unblockSlot o l i => orderFrame o codeUnblockSlot [l, i]
  | .landingQuery o l => orderFrame o codeLandingQuery [l]
  | .declareMass o m n k p i => orderFrame o codeDeclareMass ([m] ++ be16 n ++ [k, p, i])
  | .removeMass o m => orderFrame o codeRemoveMass [m]
  | .verify o l => orderFrame o codeVerify [l]
  | .releaseScope o c => orderFrame o codeReleaseScope [c]
  | .admitScope o c => orderFrame o codeAdmitScope [c]
  | .massQuery o m => orderFrame o codeMassQuery [m]
  | .tallyQuery o => orderFrame o codeTallyQuery []
  | .prove o h => orderFrame o codeProve [h]
  | .proofWrite o i c => orderFrame o codeProofWrite (be16 i ++ be16 c)
  | .maskWrite o x => orderFrame o codeMaskWrite (be16 x)
  | .scopeOptions o c x y => orderFrame o codeScopeOptions [c, x, y]
  | .status o => orderFrame o codeStatus []
  | .readRecord o => orderFrame o codeReadRecord []
  | .logControl o x => orderFrame o codeLogControl [x]
  | .timerWrite o p => orderFrame o codeTimerWrite (timerParamBytes p)
  | .restart o _ => orderFrame o codeRestart []

end Sys2Proof
end

