-- ==== Sys2Proof/Machine/Expiries.lean ====
section
/-! DEFINITION. The expiries of the part's own timers (R32, R34, R41, R43, R125, R153, R164) and the passing second
(R157, R159). -/

namespace Sys2Proof.Machine

/-- HANDOVER_TIMER_EXPIRY (R125, R133 to R135): a failure for the phase of the hoist's open handover. -/
def execHandoverTimerExpiry (h : HoistId) (s : State) : Host.Outcome State Fault Refusal :=
  event s fun s =>
    match s.openHandover h with
    | some (l, v) => expiry s v.timer fun s => s.handoverTimeout l v
    | none => s

/-- SURVEY_TIMER_EXPIRY (R153). -/
def execSurveyTimerExpiry (l : LandingId) (s : State) : Host.Outcome State Fault Refusal :=
  event s fun s => expiry s (s.landing l).surveyTimer fun s => s.surveyFailure l

/-- What the HS does with a report loss, by state (R52). -/
def State.reportLoss (s : State) (h : HoistId) : State :=
  match (s.hoist h).state with
  | .engaging => s.trip h .reportLoss
  | .ready => s.trip h .reportLoss
  | .moving => s.trip h .reportLoss
  | .stopping => s.trip h .reportLoss
  | .docked => s.trip h .reportLoss
  | .parking => s.trip h .reportLoss
  | .proving => s.trip h .reportLoss
  | .parked => s.latch .reportLost
  | .tripped => s.latch .reportLost
  | .unconfigured => s
  | .releasedLocal => s

/-- The freshness at an expiry of the report-age timer, which does not restart: FRESH lapses and passes the loss on, NONE
stays (R32). -/
def State.lapse (s : State) (h : HoistId) : State :=
  let s := s.modHoist h fun r => { r with reportTimer := none }
  match (s.hoist h).freshness with
  | .fresh => (s.modHoist h fun r => { r with freshness := .lapsed }).reportLoss h
  | .none => s
  | .lapsed => s

/-- REPORT_AGE_EXPIRY (R32, R52). -/
def execReportAgeExpiry (h : HoistId) (s : State) : Host.Outcome State Fault Refusal :=
  event s fun s => expiry s (s.hoist h).reportTimer fun s => s.lapse h

/-- The stale action of a hoist's compartment (R51); STOP while the hoist is not configured (log 17). -/
def State.staleActionFor (s : State) (h : HoistId) : StaleAction :=
  match (s.hoist h).config with
  | some k => (s.comp k.compartment).staleAction
  | none => .stop

/-- What a demand-age expiry does to the hoist's state (R51). -/
def State.actOnStale (s : State) (h : HoistId) : State :=
  if (s.hoist h).state = .moving then
    match s.staleActionFor h with
    | .stop => s.stopHoist h .stale
    | .trip => s.trip h .stale
  else s

/-- DEMAND_AGE_EXPIRY (R34, R51, R99): the stale action, STALE latched, and a DEMAND of velocity 0 injected in the state
the expiry leaves; the timer restarts while the hoist is still watched (log 24). Under the stale action TRIP an expiry that a
trip of the MOVING hoist has overtaken latches TRIP again (R109; log 29). -/
def execDemandAgeExpiry (h : HoistId) (s : State) : Host.Outcome State Fault Refusal :=
  event s fun s =>
    if s.comesSecond h .stale = true ∧ s.staleActionFor h = .trip then s.takeSecond h
    else
      expiry s (s.hoist h).demandTimer fun s =>
        (((s.actOnStale h).latch .stale).superviseDemand h 0).restartDemandTimer h

/-- ENGAGE_TIMEOUT (R41): the engage timer's expiry in ENGAGING. -/
def execEngageTimeout (h : HoistId) (s : State) : Host.Outcome State Fault Refusal :=
  event s fun s =>
    if (s.hoist h).state = .engaging then
      expiry s (s.hoist h).engageTimer fun s => (s.enter h .parked).latch .engage
    else s

/-- PARK_TIMEOUT (R43): the engage timer's expiry in PARKING. One that a trip of the PARKING hoist has overtaken latches TRIP
again (R109; log 29). -/
def execParkTimeout (h : HoistId) (s : State) : Host.Outcome State Fault Refusal :=
  event s fun s =>
    if s.comesSecond h .parkFail = true then s.takeSecond h
    else if (s.hoist h).state = .parking then
      expiry s (s.hoist h).engageTimer fun s => s.trip h .parkFail
    else s

/-- PROOF_TIMER_EXPIRY (R164). -/
def execProofTimerExpiry (h : HoistId) (s : State) : Host.Outcome State Fault Refusal :=
  event s fun s =>
    if (s.hoist h).state = .proving then
      expiry s (s.hoist h).proofTimer fun s => (s.enter h .parked).latch .proof
    else s

/-- The seconds count after one more second; at its 32-bit limit a free value (R157, log 9). -/
def nextSeconds (n : Nat) : Nat :=
  if n + 1 < Config.secondsLimit then n + 1 else Config.secondsPastLimit.toNat

/-- SECOND_TICK (R157, R159): the seconds count advances and every proof status is evaluated. -/
def execSecondTick (s : State) : Host.Outcome State Fault Refusal :=
  event s fun s =>
    State.evaluateAll
      { s with
        seconds := nextSeconds s.seconds
        now := max s.now s.nextSecond
        nextSecond := s.nextSecond + 1000 }

end Sys2Proof.Machine
end

