-- ==== Sys2Proof/Machine/Frames.lean ====
section
/-! DEFINITION. The frames of the link that are not orders: dropped and passed-through frames (R173, R175), DEMAND
(R176), REPORT (R177) and SHUTTLE_REPORT (R178), and the orders that reach no block (R180). -/

namespace Sys2Proof.Machine

/-! ## Frames that reach no block -/

/-- PARTIAL_FRAME_DISCARD (R173): the partial frame sets LENGTH, and the new delimiter begins a new frame. -/
def execPartialFrameDiscard (port : Port) (s : State) : Host.Outcome State Fault Refusal :=
  event s fun s => (s.receiving port).indicate .length

/-- FRAME_DROPPED (R174, R175): the frame sets the indicator of the first step that drops it. A frame that is not dropped
is no frame of this row (log 5). -/
def execFrameDropped (port : Port) (f : Frame) (s : State) : Host.Outcome State Fault Refusal :=
  event s fun s =>
    match frameFate port f with
    | .dropped e => (s.received port).indicate e
    | .passed => s
    | .handled => s

/-- FRAME_PASS_THROUGH (R175, step 1): the frame goes out of the other port with the check it arrived with. -/
def execFramePassThrough (port : Port) (f : Frame) (s : State) : Host.Outcome State Fault Refusal :=
  event s fun s =>
    match frameFate port f with
    | .passed => (s.received port).give (Port.other port) f
    | .dropped _ => s
    | .handled => s

/-- UNKNOWN_ORDER (R180): a consumed ORDER that fails the order table is answered TARGET or RANGE and sets ORDER. -/
def execUnknownOrder (o : OrderHead) (code : Byte) (params : List Byte) (s : State) :
    Host.Outcome State Fault Refusal :=
  event s fun s =>
    match orderFault code params with
    | some r =>
      let s := s.received .uplink
      if s.consumes o = true then (s.indicate .order).answer o code ⟨r, 0, []⟩ else s.dropOrder o
    | none => s

/-- ORDER_DROPPED (R180): an ORDER that is not consumed sets ORDER (broadcast) or TARGET (another station). An ORDER that
is consumed, or a plain ALL_STOP to broadcast, is no frame of this row (log 5). -/
def execOrderDropped (o : OrderHead) (code : Byte) (params : List Byte) (s : State) :
    Host.Outcome State Fault Refusal :=
  event s fun s =>
    if s.consumes o = true ∨ (o.address = broadcast ∧ plainAllStop code params = true) then s
    else (s.received .uplink).dropOrder o

/-! ## DEMAND -/

/-- A DEMAND for a configured hoist's drive station: supervised and sent down, and the demand-age timer restarts while it
runs (R33, R38, R95 to R98, R176). The demanded mode is read and discarded (R38). -/
def State.takeDemand (s : State) (h : HoistId) (velocity : Half) : State :=
  (s.superviseDemand h velocity.toInt).restartDemandTimer h

/-- DEMAND (R175, R176). -/
def execDemand (address _mode : Byte) (velocity : Half) (s : State) : Host.Outcome State Fault Refusal :=
  event s fun s =>
    let s := s.received .uplink
    if address = 0 then s.indicate .target
    else
      match s.driveAt address with
      | some h => s.takeDemand h velocity
      | none => s.indicate .target

/-! ## REPORT -/

/-- All three of drive mode RUN, brake LIFTED and torque proven (R41). -/
def Hoist.engageComplete (r : Hoist) : Bool :=
  match r.latest with
  | some l => l.mode == .run && l.brake == .lifted && l.torqueProven
  | none => false

/-- Speed exactly 0 and C within the tolerance of the target (R47). -/
def Hoist.arrived (r : Hoist) (tolerance : Nat) : Bool :=
  match r.move with
  | some m => r.speed == 0 && decide (((r.depth : Int) - m.target).natAbs ≤ tolerance)
  | none => false

/-- The state an arrival leads to (R47). -/
def Hoist.afterArrival (r : Hoist) : HoistState :=
  match r.move with
  | some m => if m.parkOnArrival = true then .parking else .ready
  | none => .ready

/-- The outcome of a stop (R50). -/
def Hoist.stopOutcome (r : Hoist) : MoveOutcome :=
  match r.move with
  | some m =>
    match m.stopReason with
    | some .stale => .stale
    | some .stopped => .stopped
    | none => .stopped
  | none => .stopped

/-- The HS acts on a REPORT by the hoist's state: engagements, arrivals, stops and parkings (R41, R43, R47, R50). -/
def State.resolveState (s : State) (h : HoistId) : State :=
  let r := s.hoist h
  match r.state with
  | .engaging => if r.engageComplete = true then s.enter h .ready else s
  | .moving => if r.arrived s.timers.arrivalTolerance = true then s.endMove h r.afterArrival else s
  | .stopping => if r.speed = 0 then s.endMove h .ready else s
  | .parking => if r.brakeLifted = false then (s.trimToSpan h).enter h .parked else s
  | .unconfigured => s
  | .releasedLocal => s
  | .parked => s
  | .proving => s
  | .ready => s
  | .docked => s
  | .tripped => s

/-- The outcome of the open move that the sequencer ends at this REPORT, if it ends one (R47, R50). -/
def State.moveEnded (s : State) (h : HoistId) : Option MoveOutcome :=
  let r := s.hoist h
  if r.moveOpen = true then
    if r.state = .moving ∧ r.arrived s.timers.arrivalTolerance = true then some .arrived
    else if r.state = .stopping ∧ r.speed = 0 then some r.stopOutcome
    else none
  else none

/-- The report path: the CT first, then the CA, TA, HS, BP and MR; a move the HS ends has its record once they have acted
(R167; DEDUCED, log 12), and the EC's recompute comes last (R25, R92, R159, R168, R177). -/
def State.reportPath (s : State) (h : HoistId) (w : ReportWire) : State :=
  let tested := (((s.copyReference h).trackReport h w).releaseBehind h).actOnTests h (s.sinceReport h)
  let settled := ((tested.resolveState h).takeProofResult h).evaluateProof h
  ((settled.weighIfDue h).logEnd h (tested.moveEnded h)).recompute h

/-- REPORT (R175, R177): taken, annexed and forwarded for a configured hoist's drive station; passed up unaltered for any
other station. -/
def execReport (address : Byte) (w : ReportWire) (s : State) : Host.Outcome State Fault Refusal :=
  event s fun s =>
    let s := s.received .field
    if address = 0 then s.indicate .target
    else
      match s.driveAt address with
      | some h =>
        let s := s.reportPath h w
        s.give .uplink (makeFrame address kindReport (reportBytes w ++ s.annex h))
      | none => s.give .uplink (makeFrame address kindReport (reportBytes w))

/-! ## SHUTTLE_REPORT -/

/-- The LH's part of a SHUTTLE_REPORT (R122, R178). -/
def State.shuttlePath (s : State) (address : Byte) (w : ShuttleWire) : State :=
  match s.shuttleAt address with
  | some l => s.takeShuttleReport l w
  | none => s

/-- SHUTTLE_REPORT (R122, R175, R178): the LH acts on it, and then it goes up unaltered. A survey count above 8 is a wrong
length. -/
def execShuttleReport (address : Byte) (w : ShuttleWire) (s : State) : Host.Outcome State Fault Refusal :=
  event s fun s =>
    let s := s.received .field
    if address = 0 then s.indicate .target
    else if 8 < w.survey.length then s.indicate .length
    else (s.shuttlePath address w).give .uplink (makeFrame address kindShuttleReport (shuttleBytes w))

end Sys2Proof.Machine
end

