-- ==== Sys2Proof/Machine/HandoverOrders.lean ====
section
/-! DEFINITION. The orders of the landings: TRANSFER, ABORT_TRANSFER, RESOLVE, BLOCK_SLOT, UNBLOCK_SLOT and LANDING_QUERY
(07). -/

namespace Sys2Proof.Machine

/-! ## TRANSFER -/

/-- A defined landing that serves the compartment and whose sill lies within the docking window of C, with its distance
(R123, check 4). -/
def State.dockingDistance (s : State) (c : Compartment) (depth : Nat) (l : LandingId) : Option Nat :=
  match (s.landing l).record with
  | some rec =>
    let d := ((rec.sill : Int) - depth).natAbs
    if rec.serves c = true ∧ d ≤ s.timers.dockingWindow then some d else none
  | none => none

/-- Of two candidates, the nearer; the earlier on equal distance (R123, check 4). -/
def nearerLanding (best : Option (LandingId × Nat)) (l : LandingId) (d : Option Nat) : Option (LandingId × Nat) :=
  match best, d with
  | some b, some x => if x < b.2 then some (l, x) else some b
  | none, some x => some (l, x)
  | b, none => b

/-- The docking landing (R123, check 4). -/
def State.dockingLanding (s : State) (c : Compartment) (depth : Nat) : Option LandingId :=
  (allLandings.foldl (fun best l => nearerLanding best l (s.dockingDistance c depth l)) none).map Prod.fst

/-- The LANDING zone that names a landing in the committed table lies in the hoist's run (R123, check 4). -/
def State.landingInRun (s : State) (r : Hoist) (l : LandingId) : Bool :=
  match (s.tableOf r).zones.find? fun z => (s.tableOf r).namesAt l z with
  | some z => inRun r.run z
  | none => false

/-- What a TRANSFER asks for: the named slot and the named mass. -/
structure TransferRequest where
  kind : TransferKind
  slot : Option Nat
  mass : Option MassId
deriving DecidableEq, Repr

/-- The mass named in a TRANSFER: 0 names none, a number outside M1 to M96 names no mass there is (R123, R186). -/
def namedMass (b : Byte) : Option (Option MassId) :=
  if b = 0 then some none
  else
    match massOf b with
    | some m => some (some m)
    | none => none

/-- The mass a hoist carries, when the part knows it. -/
def Carried.known : Carried → Option MassId
  | .mass m => some m
  | .none => Option.none
  | .unknownLoad => Option.none

/-- The handover's mass as check 8 takes it: the carried m for a DEPOSIT, the named m for a COLLECT (R123). -/
def TransferRequest.massOn (q : TransferRequest) (r : Hoist) : Option MassId :=
  match q.kind with
  | .deposit => r.carried.known
  | .collect => q.mass

/-- A slot is the slot of an open handover of the landing, named or granted (R123, R138). -/
def Landing.slotInHandover (x : Landing) (i : Nat) : Bool := x.queue.any fun v => v.slot == some i

/-- The handover's mass or the named slot is that of another open handover (R123, check 8). -/
def State.doubleUse (s : State) (l : LandingId) (q : TransferRequest) (r : Hoist) : Bool :=
  (match q.massOn r with
    | some m => s.massInHandover m
    | none => false) ||
  (match q.slot with
    | some i => (s.landing l).slotInHandover i
    | none => false)

/-- The hoist carries what the kind needs (R123, check 9). -/
def TransferRequest.carriedFits (q : TransferRequest) (r : Hoist) : Bool :=
  match q.kind with
  | .deposit => r.carried.known.isSome
  | .collect => r.carried == .none

/-- The named slot and mass are in the states the kind needs (R123, check 10). -/
def State.slotFits (s : State) (l : LandingId) (q : TransferRequest) : Bool :=
  match q.kind, q.slot, q.mass with
  | .deposit, some i, _ => s.slotAt l i == .empty
  | .deposit, none, _ => true
  | .collect, some i, some m => s.slotAt l i == .occupied m
  | .collect, some i, none => (s.slotAt l i).holding.isSome
  | .collect, none, some m =>
    match (s.landing l).record with
    | some rec => rec.slots.contains (.occupied m)
    | none => false
  | .collect, none, none => true

/-- The handover's mass from acceptance (R124, R125): for a COLLECT that names a slot and no mass, the mass the slot holds
(DEDUCED, log 21). -/
def State.acceptedMass (s : State) (l : LandingId) (q : TransferRequest) (r : Hoist) : Option MassId :=
  match q.kind, q.slot, q.mass with
  | .collect, some i, none => (s.slotAt l i).holding
  | _, _, _ => q.massOn r

/-- The handover record at acceptance (R124). -/
def State.openedHandover (s : State) (h : HoistId) (l : LandingId) (q : TransferRequest) : Handover where
  hoist := h
  kind := q.kind
  slot := q.slot
  mass := s.acceptedMass l q (s.hoist h)
  phase := .waiting
  timer := none
  outcome := none
  settled := false
  waited := false

/-- TRANSFER accepted: the handover is queued, the hoist DOCKED, and the shuttle granted at once if it is free (R124). -/
def State.openTransfer (s : State) (h : HoistId) (l : LandingId) (q : TransferRequest) : State :=
  let v := s.openedHandover h l q
  let free := (s.landing l).shuttleFree
  let s := (s.modLanding l fun x => { x with queue := x.queue ++ [v] }).enter h .docked
  if free = true then s.arbiter l else s.markWaited l h

/-- Checks 5 to 10 of R123, with the docking landing found, and the opening. -/
def State.transferAt (s : State) (h : HoistId) (k : HoistConfig) (l : LandingId) (q : TransferRequest) :
    State × Reply :=
  let x := s.landing l
  let beyond :=
    match q.slot with
    | some i => decide (x.slotCount ≤ i)
    | none => false
  if beyond = true then s.refuse .range
  else if x.survey = true then s.refuse .busy
  else if 2 ≤ x.queue.length ∨ (x.queue.any fun v => (s.hoist v.hoist).inCompartment k.compartment) = true then
    s.refuse .busy
  else if s.doubleUse l q (s.hoist h) = true then s.refuse .conflict
  else if q.carriedFits (s.hoist h) = false then s.refuse .occupied
  else if s.slotFits l q = false then s.refuse .occupied
  else (s.openTransfer h l q).acceptWith (l.val + 1)

/-- Checks 2 to 4 of R123. -/
def State.transferTo (s : State) (h : HoistId) (q : TransferRequest) : State × Reply :=
  match (s.hoist h).config with
  | none => s.refuse .target
  | some k =>
    if s.supervised k.compartment = false then s.refuse .scope
    else if (s.hoist h).state ≠ .ready then s.refuse .state
    else
      match s.dockingLanding k.compartment (s.hoist h).depth with
      | none => s.refuse .target
      | some l =>
        if s.landingInRun (s.hoist h) l = false then s.refuse .target else s.transferAt h k l q

/-- The checks of R123 in order. -/
def State.transfer (s : State) (hoist kind selector mass : Byte) : State × Reply :=
  match s.configuredHoist hoist, namedMass mass with
  | some h, some m =>
    match transferKindOf kind, selectorOf selector with
    | some k, some slot =>
      if k = .deposit ∧ m.isSome = true then s.refuse .range else s.transferTo h ⟨k, slot, m⟩
    | _, _ => s.refuse .range
  | _, _ => s.refuse .target

/-- TRANSFER (R123, R124). -/
def execTransfer (o : OrderHead) (hoist kind selector mass : Byte) (s : State) : Host.Outcome State Fault Refusal :=
  order s o codeTransfer fun s => s.transfer hoist kind selector mass

/-! ## ABORT_TRANSFER and RESOLVE -/

/-- R132. -/
def State.abortTransfer (s : State) (hoist : Byte) : State × Reply :=
  match s.configuredHoist hoist with
  | none => s.refuse .target
  | some h =>
    match s.openHandover h with
    | none => s.refuse .state
    | some (l, v) =>
      match v.phase with
      | .waiting => (s.closeHandover l h).accept
      | .latching => (s.undoLatch l v .abandoned).accept
      | .transferring => s.refuse .state
      | .unlatching => s.refuse .state
      | .stuck => s.refuse .state

/-- ABORT_TRANSFER (R132). -/
def execAbortTransfer (o : OrderHead) (hoist : Byte) (s : State) : Host.Outcome State Fault Refusal :=
  order s o codeAbortTransfer fun s => s.abortTransfer hoist

/-- The records an unsettled handover is resolved to (R136). -/
def State.applyResolve (s : State) (l : LandingId) (v : Handover) (outcome : ResolveOutcome) : State :=
  match v.slot, v.mass with
  | some i, some m =>
    match outcome with
    | .onHoist =>
      (((s.setStatus m (.placed (.hoist v.hoist))).setSlot l i .empty).setCarried v.hoist (.mass m)).setWeighPending
        v.hoist true
    | .inSlot =>
      (((s.setStatus m (.placed (.slot l i))).setSlot l i (.occupied m)).setCarried v.hoist .none).setWeighPending
        v.hoist false
    | .unknown =>
      (((s.setStatus m (.uncertain (some (.slot l i)))).setSlot l i (.unverified (some m))).setCarried v.hoist
        .unknownLoad).setWeighPending v.hoist true
  | _, _ => s

/-- R136. -/
def State.resolve (s : State) (hoist outcome : Byte) : State × Reply :=
  match s.configuredHoist hoist with
  | none => s.refuse .target
  | some h =>
    match resolveOf outcome with
    | none => s.refuse .range
    | some x =>
      match s.openHandover h with
      | none => s.refuse .state
      | some (l, v) =>
        if v.phase ≠ .stuck then s.refuse .state
        else if v.settled = true then (s.toUnlatching l v).acceptWith 0
        else (((s.applyResolve l v x).settle l h .failed).toUnlatching l v).acceptWith 1

/-- RESOLVE (R136). -/
def execResolve (o : OrderHead) (hoist outcome : Byte) (s : State) : Host.Outcome State Fault Refusal :=
  order s o codeResolve fun s => s.resolve hoist outcome

/-! ## BLOCK_SLOT and UNBLOCK_SLOT -/

/-- The slot becomes BLOCKED; a mass it held becomes UNCERTAIN, expected there (R138). -/
def State.blockSlotAt (s : State) (l : LandingId) (i : Nat) : State :=
  match s.slotAt l i with
  | .empty => s.setSlot l i (.blocked none)
  | .occupied m => (s.setSlot l i (.blocked (some m))).setStatus m (.uncertain (some (.slot l i)))
  | .unverified x => s.setSlot l i (.blocked x)
  | .blocked x => s.setSlot l i (.blocked x)
  | .reserved _ => s

/-- A slot is RESERVED. -/
def SlotState.isReserved : SlotState → Bool
  | .reserved _ => true
  | .empty => false
  | .occupied _ => false
  | .unverified _ => false
  | .blocked _ => false

/-- The checks of R138 in order. -/
def State.blockSlot (s : State) (landing : Byte) (slot : Nat) : State × Reply :=
  match s.definedLanding landing with
  | none => s.refuse .target
  | some (l, rec) =>
    if rec.slots.length ≤ slot then s.refuse .range
    else if (s.landing l).survey = true then s.refuse .busy
    else if (s.slotAt l slot).isReserved = true ∨ (s.landing l).slotInHandover slot = true then s.refuse .state
    else (s.blockSlotAt l slot).accept

/-- BLOCK_SLOT (R138). -/
def execBlockSlot (o : OrderHead) (landing slot : Byte) (s : State) : Host.Outcome State Fault Refusal :=
  order s o codeBlockSlot fun s => s.blockSlot landing slot.toNat

/-- The checks of R139 in order. -/
def State.unblockSlot (s : State) (landing : Byte) (slot : Nat) : State × Reply :=
  match s.definedLanding landing with
  | none => s.refuse .target
  | some (l, rec) =>
    if rec.slots.length ≤ slot then s.refuse .range
    else if (s.landing l).survey = true then s.refuse .busy
    else
      match s.slotAt l slot with
      | .blocked x =>
        if (s.landing l).slotInHandover slot = true then s.refuse .state
        else (s.setSlot l slot (.unverified x)).accept
      | .empty => s.refuse .state
      | .occupied _ => s.refuse .state
      | .reserved _ => s.refuse .state
      | .unverified _ => s.refuse .state

/-- UNBLOCK_SLOT (R139). -/
def execUnblockSlot (o : OrderHead) (landing slot : Byte) (s : State) : Host.Outcome State Fault Refusal :=
  order s o codeUnblockSlot fun s => s.unblockSlot landing slot.toNat

/-! ## LANDING_QUERY -/

/-- A slot of a handover record in an answer, 255 for none (R186). -/
def slotCode : Option Nat → Nat
  | some i => i
  | none => 255

/-- A handover's outcome, 0 absent (R186). -/
def outcomeCode : Option HandoverOutcome → Nat
  | some x => x.code
  | none => 0

/-- Whether a timer runs, and the milliseconds to its expiry (R140, R186). -/
def timerData (now : Nat) : Option Nat → List Byte
  | some e => num8 1 ++ num32 (e - now)
  | none => num8 0 ++ num32 0

/-- The 14 bytes of an open handover (R186). -/
def handoverData (now : Nat) (l : LandingId) (v : Handover) : List Byte :=
  num8 (v.hoist.val + 1) ++ num8 (l.val + 1) ++ num8 v.kind.code ++ num8 (slotCode v.slot) ++
    num8 (massCode v.mass) ++ num8 v.phase.code ++ timerData now v.timer ++ num8 (outcomeCode v.outcome) ++
    bit8 v.settled ++ bit8 v.waited

/-- The two bytes of a slot (R186). -/
def slotData (st : SlotState) : List Byte := num8 st.code ++ num8 (massCode st.names)

/-- The data of the answer: one byte for an undefined landing (R140, R186). -/
def State.landingData (s : State) (l : LandingId) : List Byte :=
  let x := s.landing l
  match x.record with
  | none => num8 0
  | some rec =>
    num8 1 ++ num32 rec.sill ++ num8 rec.slots.length ++ num8 rec.orderMode.code ++ num8 rec.servedCode ++
      num8 rec.station ++ num8 rec.pointer ++ rec.slots.flatMap slotData ++ num8 x.shuttle.code ++
      num8 x.holder.code ++ bit8 x.survey ++ num8 x.queue.length ++ x.queue.flatMap (handoverData s.now l)

/-- R140. -/
def State.landingQuery (s : State) (landing : Byte) : State × Reply :=
  match landingOf landing with
  | none => s.refuse .target
  | some l => s.acceptData (s.landingData l)

/-- LANDING_QUERY (R140). -/
def execLandingQuery (o : OrderHead) (landing : Byte) (s : State) : Host.Outcome State Fault Refusal :=
  order s o codeLandingQuery fun s => s.landingQuery landing

end Sys2Proof.Machine
end

