-- ==== Sys2Proof/Machine/HoistOrders.lean ====
section
/-! DEFINITION. The orders of a hoist and of groups of hoists: HOIST_CONFIG (02), HOIST_QUERY, ENGAGE, PARK, MOVE, ABORT,
RESET_HOIST, CEILING, GROUP_WRITE, GROUP_CEILING, GROUP_STOP and ALL_STOP (03), with the claims of MOVE (04). -/

namespace Sys2Proof.Machine

/-! ## HOIST_CONFIG -/

/-- The fields of R21 as numbers, with the default profile ceiling saturated (R22, check 2); none when one is outside its
range. -/
def configOf (p : HoistParams) : Option HoistConfig :=
  match compartmentOf p.compartment with
  | none => none
  | some c =>
    if (1 ≤ p.rank.toNat ∧ p.rank.toNat ≤ 3) ∧ (1 ≤ p.driveStation.toNat ∧ p.driveStation.toNat ≤ 62) ∧
        (1000 ≤ p.tare.toNat ∧ p.tare.toNat ≤ 30000) ∧ (2000 ≤ p.height.toNat ∧ p.height.toNat ≤ 20000) ∧
        p.sheaveOffset.toNat ≤ 200 ∧ p.ropeCoeff.toNat ≤ 63 ∧ p.stretchCap.toNat ≤ 8000 ∧
        (300 ≤ p.decel.toNat ∧ p.decel.toNat ≤ 3000) ∧ p.precedence.toNat ≤ 7 then
      some
        { compartment := c
          rank := p.rank.toNat
          driveStation := p.driveStation.toNat
          tare := p.tare.toNat
          height := p.height.toNat
          sheaveOffset := p.sheaveOffset.toNat
          ropeCoeff := p.ropeCoeff.toNat
          stretchCap := p.stretchCap.toNat
          decel := p.decel.toNat
          defaultCeiling := min Config.maxCeiling p.defaultCeiling.toNat
          precedence := p.precedence.toNat }
    else none

/-- The hoist is configured and its present compartment is SUPERVISED (R22, check 3). -/
def State.configSupervised (s : State) (h : HoistId) : Bool :=
  match (s.hoist h).config with
  | some k => s.supervised k.compartment
  | none => false

/-- Another configured hoist of the compartment has the rank (R22, check 4). -/
def State.rankTaken (s : State) (h : HoistId) (c : Compartment) (rank : Nat) : Bool :=
  (s.hoistsOf c).any fun x => x != h && (s.hoist x).rank == rank

/-- Another configured hoist has the drive station (R22, check 5). -/
def State.otherDrive (s : State) (h : HoistId) (station : Nat) : Bool :=
  allHoists.any fun x =>
    x != h &&
      match (s.hoist x).config with
      | some k => k.driveStation == station
      | none => false

/-- A station address is the shuttle station of a defined landing (R22, check 5). -/
def State.isShuttle (s : State) (station : Nat) : Bool :=
  allLandings.any fun l =>
    match (s.landing l).record with
    | some rec => rec.station == station
    | none => false

/-- The state of a hoist that follows from its compartment's (R23, R37). Check 3 of R22 leaves no SUPERVISED
compartment (log 17). -/
def CompartmentState.hoistState : CompartmentState → HoistState
  | .unconfigured => .unconfigured
  | .released => .releasedLocal
  | .supervised => .parked

/-- The drive station given is not the one configured (R23). -/
def Hoist.newStation (r : Hoist) (station : Nat) : Bool :=
  match r.config with
  | some k => k.driveStation != station
  | none => true

/-- The configuration written, with what follows from it (R23, R31, R91). -/
def State.writeConfig (s : State) (h : HoistId) (k : HoistConfig) : State :=
  let s :=
    s.modHoist h fun r =>
      let r : Hoist :=
        if r.newStation k.driveStation = true then
          { r with latest := none, freshness := .none, reportTimer := some (s.now + s.timers.reportLimit) }
        else r
      { r with config := some k, profileCeiling := k.defaultCeiling }
  s.enter h (s.comp k.compartment).state.hoistState

/-- The checks of R22 in order, and R23. -/
def State.hoistConfig (s : State) (hoist : Byte) (p : HoistParams) : State × Reply :=
  match hoistOf hoist with
  | none => s.refuse .target
  | some h =>
    match configOf p with
    | none => s.refuse .range
    | some k =>
      if s.configSupervised h = true ∨ s.supervised k.compartment = true then s.refuse .state
      else if s.rankTaken h k.compartment k.rank = true then s.refuse .conflict
      else if k.driveStation = s.strapAddress.toNat ∨ s.otherDrive h k.driveStation = true ∨
          s.isShuttle k.driveStation = true then s.refuse .conflict
      else (s.writeConfig h k).accept

/-- HOIST_CONFIG (R22, R23). -/
def execHoistConfig (o : OrderHead) (hoist : Byte) (p : HoistParams) (s : State) :
    Host.Outcome State Fault Refusal :=
  order s o codeHoistConfig fun s => s.hoistConfig hoist p

/-! ## HOIST_QUERY -/

/-- The 16 configuration bytes, all 0 when absent (R186). -/
def configData : Option HoistConfig → List Byte
  | some k =>
    num8 k.compartment.code ++ num8 k.rank ++ num8 k.driveStation ++ num16 k.tare ++ num16 k.height ++
      num8 k.sheaveOffset ++ num8 k.ropeCoeff ++ num16 k.stretchCap ++ num16 k.decel ++ num16 k.defaultCeiling ++
      num8 k.precedence
  | none => List.replicate 16 0

/-- Drive mode, brake and speed of the latest REPORT, 0 with none (R186). -/
def latestData : Option Latest → List Byte
  | some l => num8 l.mode.code ++ num8 l.brake.code ++ int16 l.speed
  | none => List.replicate 4 0

/-- A stop reason that may be absent (R186). -/
def stopReasonCode : Option StopReason → Nat
  | some x => x.code
  | none => 0

/-- The 17 bytes of the move part (R186). -/
def moveData : Option Move → List Byte
  | some m =>
    num8 (if m.isOpen = true then 1 else 2) ++ num32 m.target ++ num8 m.direction.code ++ bit8 m.parkOnArrival ++
      num32 m.startDepth ++ num32 m.startTime ++ num8 (moveFlagsCode m.waited m.clamped m.degraded) ++
      num8 (stopReasonCode m.stopReason)
  | none => List.replicate 17 0

/-- The groups a hoist belongs to, bit n - 1 for Gn (R186). -/
def State.groupsOf (s : State) (h : HoistId) : Nat :=
  (if (s.group 0).getLsbD h.val = true then 1 else 0) + (if (s.group 1).getLsbD h.val = true then 2 else 0) +
    (if (s.group 2).getLsbD h.val = true then 4 else 0) + (if (s.group 3).getLsbD h.val = true then 8 else 0)

/-- A trip cause that may be absent (R186). -/
def tripCauseCode : Option TripCause → Nat
  | some c => c.code
  | none => 0

/-- Top and bottom zone of a run, 0 for an empty one (R186). -/
def runData : Option Run → List Byte
  | some r => num8 r.top ++ num8 r.bottom
  | none => [0, 0]

/-- The 62 bytes of the answer (R60, R186). For a hoist that is not configured the fields beyond those R60 names are 0
(log 25). -/
def State.hoistData (s : State) (h : HoistId) : List Byte :=
  let r := s.hoist h
  if r.configured = true then
    num8 1 ++ configData r.config ++ num8 r.state.code ++ num8 (tripCauseCode r.tripCause) ++ num8 r.carried.code ++
      bit8 r.weighPending ++ num8 r.freshness.code ++ latestData r.latest ++ num32 r.depth ++ num16 r.stretch ++
      num32 r.spanTop ++ num16 r.profileCeiling ++ moveData r.move ++ num24 r.travel ++ num8 (s.groupsOf h) ++
      runData r.run ++ num8 (r.awaited.getD 0)
  else
    num8 0 ++ configData none ++ num8 r.state.code ++ [0] ++ num8 r.carried.code ++ List.replicate 38 0 ++
      num8 (s.groupsOf h) ++ [0, 0, 0]

/-- R60. -/
def State.hoistQuery (s : State) (hoist : Byte) : State × Reply :=
  match hoistOf hoist with
  | none => s.refuse .target
  | some h => s.acceptData (s.hoistData h)

/-- HOIST_QUERY (R60). -/
def execHoistQuery (o : OrderHead) (hoist : Byte) (s : State) : Host.Outcome State Fault Refusal :=
  order s o codeHoistQuery fun s => s.hoistQuery hoist

/-! ## ENGAGE, PARK, ABORT -/

/-- The checks of R40 in order. -/
def State.engage (s : State) (hoist : Byte) : State × Reply :=
  match s.configuredHoist hoist with
  | none => s.refuse .target
  | some h =>
    if (s.hoist h).state ≠ .parked then s.refuse .state
    else if (s.hoist h).freshness ≠ .fresh then s.refuse .state
    else if (s.hoist h).proofStatus = .lapsed then s.refuse .proof
    else (s.enter h .engaging).accept

/-- ENGAGE (R40). -/
def execEngage (o : OrderHead) (hoist : Byte) (s : State) : Host.Outcome State Fault Refusal :=
  order s o codeEngage fun s => s.engage hoist

/-- R42. -/
def State.park (s : State) (hoist : Byte) : State × Reply :=
  match s.configuredHoist hoist with
  | none => s.refuse .target
  | some h =>
    if (s.hoist h).state = .ready ∨ (s.hoist h).state = .engaging then (s.enter h .parking).accept
    else s.refuse .state

/-- PARK (R42). -/
def execPark (o : OrderHead) (hoist : Byte) (s : State) : Host.Outcome State Fault Refusal :=
  order s o codePark fun s => s.park hoist

/-- R49. -/
def State.abort (s : State) (hoist : Byte) : State × Reply :=
  match s.configuredHoist hoist with
  | none => s.refuse .target
  | some h =>
    if (s.hoist h).state = .moving then (s.stopHoist h .stopped).accept
    else if (s.hoist h).state = .stopping then s.accept
    else s.refuse .state

/-- ABORT (R49). -/
def execAbort (o : OrderHead) (hoist : Byte) (s : State) : Host.Outcome State Fault Refusal :=
  order s o codeAbort fun s => s.abort hoist

/-! ## MOVE -/

/-- The target span leaves the shaft or overlaps a BARRED zone (R44, check 4). -/
def State.targetOutside (s : State) (t : ZoneTable) (height target : Nat) : Bool :=
  decide (target < height) || decide (s.shaft.floor < target) ||
    (runZones (t.overlap s.shaft.floor (target - height) target)).any fun z => t.barred z

/-- The target lies within the arrival tolerance of C (R44, check 4). -/
def nearTarget (depth target tolerance : Nat) : Bool := decide (((target : Int) - depth).natAbs ≤ tolerance)

/-- The direction of a move from C to a target (R36, R45). -/
def directionTo (depth target : Nat) : Direction := if depth < target then .down else .up

/-- The target lies on the far side of C from the direction of the open move (R44, check 5). -/
def reverses (depth target : Nat) : Direction → Bool
  | .down => decide (target < depth)
  | .up => decide (depth < target)

/-- The move part of a move that opens now (R45). -/
def Hoist.openMove (r : Hoist) (now target : Nat) (parkOnArrival : Bool) : Hoist :=
  { r with
    travel := 0
    move := some
      { target := target
        direction := directionTo r.depth target
        parkOnArrival := parkOnArrival
        startDepth := r.depth
        startTime := now
        waited := false
        clamped := false
        degraded := false
        stopReason := none
        isOpen := true } }

/-- The pending extent is formed from the present run and target, and walked (R64, R66, R67, R74). -/
def State.claim (s : State) (h : HoistId) (target : Nat) : State :=
  State.walk
    (s.modHoist h fun r =>
      { r with extent := s.extentFor (s.tableOf r) r.run r.height target r.moveDirection }) h

/-- A MOVE accepted while the status is DUE degrades the move (R45, R160). -/
def State.degradeIfDue (s : State) (h : HoistId) : State :=
  if (s.hoist h).proofStatus = .due then s.degrade h else s

/-- MOVE accepted for a READY hoist (R45, R67). -/
def State.startMove (s : State) (h : HoistId) (target : Nat) (parkOnArrival : Bool) : State :=
  let s := (s.modHoist h fun r => r.openMove s.now target parkOnArrival).enter h .moving
  ((s.claim h target).degradeIfDue h).recompute h

/-- The open move gets the new target and flag (R46). -/
def Hoist.newTarget (r : Hoist) (target : Nat) (parkOnArrival : Bool) : Hoist :=
  r.modMove fun m => { m with target := target, parkOnArrival := parkOnArrival }

/-- MOVE accepted for a MOVING hoist (R46, R74). -/
def State.retarget (s : State) (h : HoistId) (target : Nat) (parkOnArrival : Bool) : State :=
  let r := s.hoist h
  let run := s.retargetRun r target r.moveDirection
  let s := (s.clearExtent h).setRun h run (retargetLeaving r.run run r.moveDirection)
  let s := s.modHoist h fun r => r.newTarget target parkOnArrival
  ((s.claim h target).degradeIfDue h).recompute h

/-- The zone of the mutual wait that a MOVE would bring about (R44 check 6, R68): for a retarget the extent is formed from
the run as the retarget would leave it. -/
def State.moveConflict (s : State) (h : HoistId) (target : Nat) : Option Nat :=
  let r := s.hoist h
  match r.config with
  | some k =>
    let t := (s.comp k.compartment).committed
    let d := if r.state = .moving then r.moveDirection else directionTo r.depth target
    let run := if r.state = .moving then s.retargetRun r target d else r.run
    s.mutualWait k.compartment h run (s.extentFor t run r.height target d)
  | none => none

/-- The checks of R44 in order. -/
def State.move (s : State) (hoist : Byte) (target : Nat) (parkOnArrival : Bool) : State × Reply :=
  match s.configuredHoist hoist with
  | none => s.refuse .target
  | some h =>
    let r := s.hoist h
    if r.state ≠ .ready ∧ r.state ≠ .moving then s.refuse .state
    else if r.proofStatus = .lapsed then s.refuse .proof
    else if s.targetOutside (s.tableOf r) r.height target = true then s.refuse .range
    else if nearTarget r.depth target s.timers.arrivalTolerance = true then s.refuse .range
    else if r.state = .moving ∧ reverses r.depth target r.moveDirection = true then s.refuse .state
    else
      match s.moveConflict h target with
      | some z => s.refuseWith .conflict z
      | none =>
        if r.state = .moving then (s.retarget h target parkOnArrival).accept
        else (s.startMove h target parkOnArrival).accept

/-- MOVE (R44 to R46). Park-on-arrival is clear for 0 and set for any other value (R186). -/
def execMove (o : OrderHead) (hoist : Byte) (target : Word) (parkOnArrival : Byte) (s : State) :
    Host.Outcome State Fault Refusal :=
  order s o codeMove fun s => s.move hoist target.toNat (parkOnArrival != 0)

/-! ## RESET_HOIST -/

/-- A run for the hoist would not keep the rank order: another hoist of the compartment has a run of which some zone does not
lie below it, or above it, as the ranks say (R62). -/
def State.outOfOrder (s : State) (h : HoistId) (c : Compartment) (run : Run) : Bool :=
  (s.hoistsOf c).any fun x =>
    match (s.hoist x).run with
    | some y =>
      x != h && (decide ((s.hoist h).rank < (s.hoist x).rank ∧ y.top ≤ run.bottom) ||
        decide ((s.hoist x).rank < (s.hoist h).rank ∧ run.top ≤ y.bottom))
    | none => false

/-- A zone the span overlaps lies in the run of another hoist or is BARRED (R54, check 5), or its zones would stand out of rank
order: R62 has RESET_HOIST test the order, and that CONFLICT answers it is DEDUCED (log 30). -/
def State.spanBlocked (s : State) (h : HoistId) : Bool :=
  let r := s.hoist h
  match r.config with
  | some k =>
    let t := (s.comp k.compartment).committed
    match s.spanZones t r with
    | some run =>
      s.outOfOrder h k.compartment run ||
        run.zones.any fun z =>
          t.barred z ||
            match s.holder k.compartment z with
            | some x => x != h
            | none => false
    | none => false
  | none => false

/-- The checks of R54 in order, and the reset. -/
def State.resetHoist (s : State) (hoist : Byte) : State × Reply :=
  match s.configuredHoist hoist with
  | none => s.refuse .target
  | some h =>
    if (s.hoist h).state ≠ .tripped then s.refuse .state
    else if (s.hoist h).freshness ≠ .fresh ∨ (s.hoist h).brakeLifted = true then s.refuse .state
    else if (s.openHandover h).isSome = true then s.refuse .busy
    else if s.spanBlocked h = true then s.refuse .conflict
    else
      let s := (s.modHoist h fun r => { r with tripCause := none }).enter h .parked
      (s.runToSpan h).accept

/-- RESET_HOIST (R54). -/
def execResetHoist (o : OrderHead) (hoist : Byte) (s : State) : Host.Outcome State Fault Refusal :=
  order s o codeResetHoist fun s => s.resetHoist hoist

/-! ## Ceilings and groups -/

/-- A profile ceiling is written, saturated, and the envelope recomputed at once (R58, R91). -/
def State.writeCeiling (s : State) (h : HoistId) (value : Nat) : State :=
  (s.modHoist h fun r => { r with profileCeiling := min Config.maxCeiling value }).recompute h

/-- R58. -/
def State.ceiling (s : State) (hoist : Byte) (value : Nat) : State × Reply :=
  match hoistOf hoist with
  | none => s.refuse .target
  | some h => if (s.hoist h).configured = true then (s.writeCeiling h value).accept else s.refuse .state

/-- CEILING (R58). -/
def execCeiling (o : OrderHead) (hoist : Byte) (value : Half) (s : State) : Host.Outcome State Fault Refusal :=
  order s o codeCeiling fun s => s.ceiling hoist value.toNat

/-- The members of a group, H1 first (R57). -/
def State.members (s : State) (g : GroupId) : List HoistId := allHoists.filter fun h => (s.group g).getLsbD h.val

/-- R57. A set bit 6 or 7 names a hoist outside H1 to H6 (R186). -/
def State.groupWrite (s : State) (group set : Byte) : State × Reply :=
  match groupOf group with
  | none => s.refuse .target
  | some g => if set.toNat < 64 then (s.setGroup g (set.setWidth 6)).accept else s.refuse .target

/-- GROUP_WRITE (R57). -/
def execGroupWrite (o : OrderHead) (group set : Byte) (s : State) : Host.Outcome State Fault Refusal :=
  order s o codeGroupWrite fun s => s.groupWrite group set

/-- R58. -/
def State.groupCeiling (s : State) (group : Byte) (value : Nat) : State × Reply :=
  match groupOf group with
  | none => s.refuse .target
  | some g =>
    let hs := (s.members g).filter fun h => (s.hoist h).configured
    State.acceptWith (hs.foldl (fun s h => s.writeCeiling h value) s) hs.length

/-- GROUP_CEILING (R58). -/
def execGroupCeiling (o : OrderHead) (group : Byte) (value : Half) (s : State) : Host.Outcome State Fault Refusal :=
  order s o codeGroupCeiling fun s => s.groupCeiling group value.toNat

/-- R59. -/
def State.groupStop (s : State) (group : Byte) : State × Reply :=
  match groupOf group with
  | none => s.refuse .target
  | some g => (s.stopAll (s.members g)).acceptWith (s.countMoving (s.members g))

/-- GROUP_STOP (R59). -/
def execGroupStop (o : OrderHead) (group : Byte) (s : State) : Host.Outcome State Fault Refusal :=
  order s o codeGroupStop fun s => s.groupStop group

/-- R59. -/
def State.allStop (s : State) : State × Reply := (s.stopAll allHoists).acceptWith (s.countMoving allHoists)

/-- ALL_STOP (R59): answered when addressed to the part, carried out without an answer when broadcast, even by a part that
has no station address of its own (R179, R180). -/
def execAllStop (o : OrderHead) (s : State) : Host.Outcome State Fault Refusal :=
  if o.address = broadcast then event s fun s => (s.received .uplink).allStop.1
  else order s o codeAllStop fun s => s.allStop

end Sys2Proof.Machine
end

