-- ==== Sys2Proof/Machine/MassOrders.lean ====
section
/-! DEFINITION. The orders of the mass registry: DECLARE_MASS, REMOVE_MASS, RELEASE_SCOPE, ADMIT_SCOPE, VERIFY, MASS_QUERY
and TALLY_QUERY (08). -/

namespace Sys2Proof.Machine

/-! ## DECLARE_MASS and REMOVE_MASS -/

/-- A compartment concerned with a place is SUPERVISED: each one the slot's landing serves, or the hoist's (R143). -/
def State.placeSupervised (s : State) : Place → Bool
  | .slot l _ =>
    match (s.landing l).record with
    | some rec => (rec.servesA && s.supervised .a) || (rec.servesB && s.supervised .b)
    | none => false
  | .hoist h =>
    match (s.hoist h).config with
    | some k => s.supervised k.compartment
    | none => false

/-- The same of the place a mass record names, when it names one (R143, R145). -/
def State.massSupervised (s : State) (m : MassId) : Bool :=
  match (s.mass m).status.place with
  | some p => s.placeSupervised p
  | none => false

/-- The location of a DECLARE_MASS, once its numbers have passed check 1 of R143: an unknown kind is none. -/
inductive DeclaredPlace where
  | place (p : Place)
  | noSuch
  | unknownKind
deriving DecidableEq, Repr

/-- The location given (R143, R186): for a hoist location the slot byte is passed over. -/
def State.declaredPlace (s : State) (kind place slot : Byte) : DeclaredPlace :=
  if kind = 0 then
    match s.definedLanding place with
    | some (l, _) => .place (.slot l slot.toNat)
    | none => .noSuch
  else if kind = 1 then
    match s.configuredHoist place with
    | some h => .place (.hoist h)
    | none => .noSuch
  else .unknownKind

/-- A slot index of N or more (R143, check 2). -/
def State.beyondSlots (s : State) : Place → Bool
  | .slot l i => decide ((s.landing l).slotCount ≤ i)
  | .hoist _ => false

/-- The location is free for the mass (R143, check 4). -/
def State.placeFree (s : State) (m : MassId) : Place → Bool
  | .slot l i =>
    match s.slotAt l i with
    | .empty => true
    | .unverified none => true
    | .unverified (some x) => x == m
    | .occupied x => x == m
    | .reserved _ => false
    | .blocked _ => false
  | .hoist h =>
    match (s.hoist h).carried with
    | .none => true
    | .mass x => x == m
    | .unknownLoad => true

/-- The place given receives the mass (R144). -/
def State.receiveMass (s : State) (m : MassId) : Place → State
  | .slot l i => s.setSlot l i (.unverified (some m))
  | .hoist h => s.setCarried h (.mass m)

/-- An accepted declaration (R144). -/
def State.declare (s : State) (m : MassId) (nominal : Nat) (p : Place) : State :=
  ((s.vacatePlace m).modMass m fun _ => ⟨.uncertain (some p), some nominal, none⟩).receiveMass m p

/-- The checks of R143 in order. -/
def State.declareMass (s : State) (mass : Byte) (nominal : Nat) (kind place slot : Byte) : State × Reply :=
  match massOf mass with
  | none => s.refuse .target
  | some m =>
    match s.declaredPlace kind place slot with
    | .noSuch => s.refuse .target
    | .unknownKind => s.refuse .range
    | .place p =>
      if ¬(5000 ≤ nominal ∧ nominal ≤ 60000) ∨ s.beyondSlots p = true then s.refuse .range
      else if s.placeSupervised p = true ∨ s.massSupervised m = true then s.refuse .scope
      else if s.placeFree m p = false then s.refuse .occupied
      else (s.declare m nominal p).accept

/-- DECLARE_MASS (R143, R144). -/
def execDeclareMass (o : OrderHead) (mass : Byte) (nominal : Half) (kind place slot : Byte) (s : State) :
    Host.Outcome State Fault Refusal :=
  order s o codeDeclareMass fun s => s.declareMass mass nominal.toNat kind place slot

/-- R145. -/
def State.removeMass (s : State) (mass : Byte) : State × Reply :=
  match massOf mass with
  | none => s.refuse .target
  | some m =>
    if s.massSupervised m = true then s.refuse .scope
    else if (s.mass m).status = .absent then s.acceptWith 0
    else ((s.vacatePlace m).setMass m .initial).acceptWith 1

/-- REMOVE_MASS (R145). -/
def execRemoveMass (o : OrderHead) (mass : Byte) (s : State) : Host.Outcome State Fault Refusal :=
  order s o codeRemoveMass fun s => s.removeMass mass

/-! ## RELEASE_SCOPE and ADMIT_SCOPE -/

/-- A landing serving the compartment for which something holds. -/
def State.anyServing (s : State) (c : Compartment) (p : Landing → Bool) : Bool :=
  allLandings.any fun l => s.landingServes l c && p (s.landing l)

/-- The compartment's state is written (R1). -/
def State.setScope (s : State) (c : Compartment) (st : CompartmentState) : State :=
  s.modComp c fun x => { x with state := st }

/-- A hoist leaves supervision with an empty run (R37, R76, R146). -/
def State.releaseHoist (s : State) (h : HoistId) : State :=
  (s.modHoist h fun r => { r with run := none }).enter h .releasedLocal

/-- The checks of R146 in order, and the release. -/
def State.releaseScope (s : State) (compartment : Byte) : State × Reply :=
  match compartmentOf compartment with
  | none => s.refuse .target
  | some c =>
    if s.supervised c = false then s.refuse .scope
    else if ((s.hoistsOf c).all fun h => (s.hoist h).state == .parked) = false then s.refuse .state
    else if s.anyServing c (fun x => !x.queue.isEmpty || x.survey) = true then s.refuse .busy
    else State.accept ((s.hoistsOf c).foldl (fun s h => s.releaseHoist h) (s.setScope c .released))

/-- RELEASE_SCOPE (R146). -/
def execReleaseScope (o : OrderHead) (compartment : Byte) (s : State) : Host.Outcome State Fault Refusal :=
  order s o codeReleaseScope fun s => s.releaseScope compartment

/-- A hoist is not heard from, or stands with its brake lifted (R147, check 3). -/
def Hoist.unfit (r : Hoist) : Bool := r.freshness != .fresh || r.brakeLifted

/-- What a hoist carries is doubted at admission (R35, R148). -/
def State.doubtCarried (s : State) (h : HoistId) : State :=
  match (s.hoist h).carried with
  | .none => s
  | .mass m => (s.setWeighPending h true).setStatus m (.uncertain (some (.hoist h)))
  | .unknownLoad => s.setWeighPending h true

/-- A hoist comes under supervision on the zones its span overlaps (R37, R76, R148). One whose held C lies beyond a floor lowered
since its last REPORT holds the last zone (R4, R19, R25; DESIGN CHOICE, log 28, unsafe). -/
def State.admitHoist (s : State) (h : HoistId) : State :=
  let s := s.modHoist h fun r => { r with run := s.spanZones (s.tableOf r) r, extent := [] }
  (s.enter h .parked).doubtCarried h

/-- A slot as admission marks it (R149). -/
def SlotState.marked : SlotState → SlotState
  | .empty => .unverified none
  | .occupied m => .unverified (some m)
  | .unverified x => .unverified x
  | .blocked x => .blocked x
  | .reserved m => .reserved m

/-- The mass of an OCCUPIED slot becomes UNCERTAIN, expected there (R149). -/
def State.markSlot (s : State) (l : LandingId) (i : Nat) : State :=
  let st := s.slotAt l i
  let s := s.setSlot l i st.marked
  match st.holding with
  | some m => s.setStatus m (.uncertain (some (.slot l i)))
  | none => s

/-- Every slot of a landing is marked (R149). -/
def State.markLanding (s : State) (l : LandingId) : State :=
  (List.range (s.landing l).slotCount).foldl (fun s i => s.markSlot l i) s

/-- Every landing that serves the compartment is marked (R149). -/
def State.markServing (s : State) (c : Compartment) : State :=
  (allLandings.filter fun l => s.landingServes l c).foldl (fun s l => s.markLanding l) s

/-- An accepted admission (R148, R149). -/
def State.bringUnder (s : State) (c : Compartment) : State :=
  ((s.hoistsOf c).foldl (fun s h => s.admitHoist h) (s.setScope c .supervised)).markServing c

/-- The checks of R147 in order. -/
def State.admitScope (s : State) (compartment : Byte) : State × Reply :=
  match compartmentOf compartment with
  | none => s.refuse .target
  | some c =>
    if s.supervised c = true ∨ (s.comp c).committed.count = 0 then s.refuse .scope
    else
      match (s.hoistsOf c).find? fun h => (s.hoist h).unfit with
      | some h => s.refuseWith .scope (h.val + 1)
      | none =>
        if s.anyServing c (fun x => !x.queue.isEmpty) = true then s.refuse .busy
        else
          match conflictZone (s.comp c).committed (s.candidates c (s.comp c).committed) with
          | some z => s.refuseWith .conflict z
          | none => (s.bringUnder c).accept

/-- ADMIT_SCOPE (R147 to R149). -/
def execAdmitScope (o : OrderHead) (compartment : Byte) (s : State) : Host.Outcome State Fault Refusal :=
  order s o codeAdmitScope fun s => s.admitScope compartment

/-! ## VERIFY -/

/-- A landing serves a compartment that is not SUPERVISED (R152, check 2). -/
def State.servesUnsupervised (s : State) (rec : LandingRec) : Bool :=
  (rec.servesA && !s.supervised .a) || (rec.servesB && !s.supervised .b)

/-- The lowest-lettered compartment a landing serves (R152, R156). -/
def LandingRec.lowest (rec : LandingRec) : Compartment := if rec.servesA = true then .a else .b

/-- An accepted VERIFY (R152). -/
def State.startSurvey (s : State) (l : LandingId) (rec : LandingRec) : State :=
  (s.modLanding l fun x =>
    { x with
      survey := true
      holder := .survey
      surveyTimer := some (s.now + 1000 * s.timers.surveyLimit) }).request l .survey rec.lowest.code 0

/-- The checks of R152 in order. -/
def State.verify (s : State) (landing : Byte) : State × Reply :=
  match s.definedLanding landing with
  | none => s.refuse .target
  | some (l, rec) =>
    if s.servesUnsupervised rec = true then s.refuse .scope
    else if (s.landing l).queue ≠ [] ∨ (s.landing l).survey = true ∨ (s.landing l).shuttleFree = false then
      s.refuse .busy
    else (s.startSurvey l rec).accept

/-- VERIFY (R152). -/
def execVerify (o : OrderHead) (landing : Byte) (s : State) : Host.Outcome State Fault Refusal :=
  order s o codeVerify fun s => s.verify landing

/-! ## MASS_QUERY and TALLY_QUERY -/

/-- A measured weight that may be absent (R186). -/
def measuredData : Option Nat → List Byte
  | some w => num8 1 ++ num32 w
  | none => num8 0 ++ num32 0

/-- Where a place is: a landing and slot, or a hoist (R186). -/
def Place.data : Place → List Byte
  | .slot l i => num8 (l.val + 1) ++ num8 i
  | .hoist h => num8 (h.val + 1) ++ num8 0

/-- The three bytes of a mass's place (R186). -/
def MassStatus.placeData : MassStatus → List Byte
  | .absent => [0, 0, 0]
  | .placed (.slot l i) => num8 1 ++ Place.data (.slot l i)
  | .placed (.hoist h) => num8 2 ++ Place.data (.hoist h)
  | .uncertain none => [0, 0, 0]
  | .uncertain (some (.slot l i)) => num8 3 ++ Place.data (.slot l i)
  | .uncertain (some (.hoist h)) => num8 4 ++ Place.data (.hoist h)

/-- The open handover of which a mass is the mass, with its landing; the first in landing order (R155). -/
def State.handoverOf (s : State) (m : MassId) : Option (LandingId × Handover) :=
  allLandings.findSome? fun l =>
    match (s.landing l).queue.find? fun v => v.mass == some m with
    | some v => some (l, v)
    | none => none

/-- The handover's hoist, landing and phase, 0 with none (R155, R186). -/
def massHandoverData : Option (LandingId × Handover) → List Byte
  | some (l, v) => num8 (v.hoist.val + 1) ++ num8 (l.val + 1) ++ num8 v.phase.code
  | none => [0, 0, 0]

/-- The 14 bytes of the answer (R155, R186). -/
def State.massData (s : State) (m : MassId) : List Byte :=
  let r := s.mass m
  num8 r.status.code ++ num16 (r.nominal.getD 0) ++ measuredData r.measured ++ r.status.placeData ++
    massHandoverData (s.handoverOf m)

/-- R155. -/
def State.massQuery (s : State) (mass : Byte) : State × Reply :=
  match massOf mass with
  | none => s.refuse .target
  | some m => s.acceptData (s.massData m)

/-- MASS_QUERY (R155). -/
def execMassQuery (o : OrderHead) (mass : Byte) (s : State) : Host.Outcome State Fault Refusal :=
  order s o codeMassQuery fun s => s.massQuery mass

/-- Masses M1 to M96 in order. -/
def allMasses : List MassId := List.finRange 96

/-- A figure in kJ: w × h × 980,665 / 100,000,000,000 with h the tally base less the depth, floored at 0 (R156). -/
def tallyFigure (weight base depth : Nat) : Nat := weight * (base - depth) * 980665 / 100000000000

/-- The depth of a mass's place; none for a hoist that holds no REPORT (R156). -/
def State.placeDepth (s : State) : Place → Option Nat
  | .slot l _ =>
    match (s.landing l).record with
    | some rec => some rec.sill
    | none => none
  | .hoist h =>
    match (s.hoist h).latest with
    | some x => some x.depth
    | none => none

/-- The compartment a place counts for (R156). -/
def State.placeCompartment (s : State) : Place → Option Compartment
  | .slot l _ =>
    match (s.landing l).record with
    | some rec => some rec.lowest
    | none => none
  | .hoist h =>
    match (s.hoist h).config with
    | some k => some k.compartment
    | none => none

/-- The figure of a PLACED mass (R156). -/
def State.figureAt (s : State) (m : MassId) (p : Place) : Nat :=
  match s.placeDepth p with
  | some d => tallyFigure (s.mass m).weight s.shaft.tallyBase d
  | none => 0

/-- A mass's figure as counted for a compartment, 0 unless it is PLACED there (R156). -/
def State.tallyOf (s : State) (c : Compartment) (m : MassId) : Nat :=
  match (s.mass m).status with
  | .placed p => if s.placeCompartment p = some c then s.figureAt m p else 0
  | .absent => 0
  | .uncertain _ => 0

/-- A mass's figure, 0 unless it is PLACED (R156). -/
def State.tallyAll (s : State) (m : MassId) : Nat :=
  match (s.mass m).status with
  | .placed p => s.figureAt m p
  | .absent => 0
  | .uncertain _ => 0

/-- How many masses have a status of the given code. -/
def State.countStatus (s : State) (code : Nat) : Nat :=
  (allMasses.filter fun m => (s.mass m).status.code == code).length

/-- The 14 bytes of the answer (R156, R186). -/
def State.tallyData (s : State) : List Byte :=
  num32 (allMasses.map s.tallyAll).sum ++ num32 (allMasses.map (s.tallyOf .a)).sum ++
    num32 (allMasses.map (s.tallyOf .b)).sum ++ num8 (s.countStatus 1) ++ num8 (s.countStatus 2)

/-- TALLY_QUERY (R156). -/
def execTallyQuery (o : OrderHead) (s : State) : Host.Outcome State Fault Refusal :=
  order s o codeTallyQuery fun s => s.acceptData s.tallyData

end Sys2Proof.Machine
end

