-- ==== Sys2Proof/Machine/PartOrders.lean ====
section
/-! DEFINITION. The orders of the brake proof scheduler (09), the trip and attention unit (06), the record queue (10) and
the link unit (11): PROVE, PROOF_WRITE, MASK_WRITE, SCOPE_OPTIONS, STATUS, READ_RECORD, LOG_CONTROL, TIMER_WRITE and
RESTART. -/

namespace Sys2Proof.Machine

/-! ## PROVE and PROOF_WRITE -/

/-- The checks of R162 in order; on acceptance a PROOF_REQ goes to the drive station. -/
def State.prove (s : State) (hoist : Byte) : State × Reply :=
  match s.configuredHoist hoist with
  | none => s.refuse .target
  | some h =>
    if (s.hoist h).state ≠ .parked then s.refuse .state
    else if (s.hoist h).freshness ≠ .fresh then s.refuse .state
    else State.accept ((s.enter h .proving).give .field (makeFrame (s.hoist h).station kindProofReq []))

/-- PROVE (R162). -/
def execProve (o : OrderHead) (hoist : Byte) (s : State) : Host.Outcome State Fault Refusal :=
  order s o codeProve fun s => s.prove hoist

/-- The envelope of every hoist that is DUE or LAPSED is recomputed (R158). -/
def State.recomputeDegraded (s : State) : State :=
  (allHoists.filter fun h => (s.hoist h).proofStatus != .current).foldl (fun s h => s.recompute h) s

/-- R158. -/
def State.proofWrite (s : State) (hours ceiling : Nat) : State × Reply :=
  if (1 ≤ hours ∧ hours ≤ 720) ∧ (500 ≤ ceiling ∧ ceiling ≤ 5000) then
    let changed := s.degradedCeiling != ceiling
    let s := State.evaluateAll { s with proofInterval := hours * 3600, degradedCeiling := ceiling }
    State.accept (if changed = true then s.recomputeDegraded else s)
  else s.refuse .range

/-- PROOF_WRITE (R158). -/
def execProofWrite (o : OrderHead) (hours ceiling : Half) (s : State) : Host.Outcome State Fault Refusal :=
  order s o codeProofWrite fun s => s.proofWrite hours.toNat ceiling.toNat

/-! ## MASK_WRITE, SCOPE_OPTIONS, STATUS -/

/-- A set without TRIP (R115). -/
def withoutTrip (x : BitVec 13) : BitVec 13 := x &&& ~~~Category.trip.set

/-- R115. A set bit 13 to 15 names no category (R186). -/
def State.maskWrite (s : State) (set : Half) : State × Reply :=
  if set.toNat < 8192 then (s.setMask (withoutTrip (set.setWidth 13))).accept else s.refuse .range

/-- MASK_WRITE (R115). -/
def execMaskWrite (o : OrderHead) (set : Half) (s : State) : Host.Outcome State Fault Refusal :=
  order s o codeMaskWrite fun s => s.maskWrite set

/-- R113. -/
def State.scopeOptions (s : State) (compartment scope stale : Byte) : State × Reply :=
  match compartmentOf compartment with
  | none => s.refuse .target
  | some c =>
    match tripScopeOf scope, staleActionOf stale with
    | some x, some y => State.accept (s.modComp c fun k => { k with tripScope := x, staleAction := y })
    | _, _ => s.refuse .range

/-- SCOPE_OPTIONS (R113). -/
def execScopeOptions (o : OrderHead) (compartment scope stale : Byte) (s : State) :
    Host.Outcome State Fault Refusal :=
  order s o codeScopeOptions fun s => s.scopeOptions compartment scope stale

/-- The link error indicators as one byte (R186). -/
def LinkErrors.code (x : LinkErrors) : Nat :=
  (if x.check = true then 1 else 0) + (if x.length = true then 2 else 0) + (if x.target = true then 4 else 0) +
    (if x.order = true then 8 else 0)

/-- The hoists whose trip lines are open, bit n - 1 for Hn (R116, R186). -/
def State.openLines (s : State) : Nat :=
  (allHoists.map fun h => if (s.hoist h).tripLineOpen = true then 2 ^ h.val else 0).sum

/-- The 7 bytes of the answer (R116, R186). -/
def State.statusData (s : State) : List Byte :=
  be16 (s.latched.setWidth 16) ++ num8 (leadingPriority s.latched) ++ be16 (s.mask.setWidth 16) ++
    num8 s.links.code ++ num8 s.openLines

/-- After the answer is built the latched set and the indicators are cleared, and RECORDS is latched again if its cause
persists (R116, R117). -/
def State.clearStatus (s : State) : State :=
  State.relatchRecords (State.setLatched { s with links := .clear } 0)

/-- R116. -/
def State.status (s : State) : State × Reply := (s.clearStatus, ⟨.accepted, 0, s.statusData⟩)

/-- STATUS (R116). -/
def execStatus (o : OrderHead) (s : State) : Host.Outcome State Fault Refusal :=
  order s o codeStatus fun s => s.status

/-! ## READ_RECORD and LOG_CONTROL -/

/-- The 21 bytes of a move record (R186). -/
def recordData (r : MoveRecord) : List Byte :=
  num8 (r.hoist.val + 1) ++ num8 r.outcome.code ++ num32 r.startDepth ++ num32 r.endDepth ++ num32 r.target ++
    num24 r.travelled ++ num8 r.carried.code ++ num8 (moveFlagsCode r.waited r.clamped r.degraded) ++
    num16 r.duration

/-- R170. -/
def State.readRecord (s : State) : State × Reply :=
  match s.records with
  | [] => s.acceptData (num8 0 ++ num8 0 ++ bit8 s.overflow)
  | r :: rest =>
    State.acceptData { s with records := rest }
      (num8 1 ++ num8 rest.length ++ bit8 s.overflow ++ recordData r)

/-- READ_RECORD (R170). -/
def execReadRecord (o : OrderHead) (s : State) : Host.Outcome State Fault Refusal :=
  order s o codeReadRecord fun s => s.readRecord

/-- R171. -/
def State.logControl (s : State) (setting : Byte) : State × Reply :=
  if setting = 0 then State.accept { s with records := [], overflow := false, logging := false }
  else if setting = 1 then State.accept { s with logging := true }
  else s.refuse .range

/-- LOG_CONTROL (R171). -/
def execLogControl (o : OrderHead) (setting : Byte) (s : State) : Host.Outcome State Fault Refusal :=
  order s o codeLogControl fun s => s.logControl setting

/-! ## TIMER_WRITE and RESTART -/

/-- The eleven fields in order, each with its range (R183). -/
def timerRanges (p : TimerParams) : List (Nat × Nat × Nat) :=
  [(p.reportLimit.toNat, 50, 1000), (p.staleLimit.toNat, 50, 1000), (p.engageLimit.toNat, 1, 30),
   (p.arrivalTolerance.toNat, 5, 500), (p.overspeedMargin.toNat, 0, 2000), (p.dockingWindow.toNat, 5, 200),
   (p.latchLimit.toNat, 1, 60), (p.transferLimit.toNat, 5, 300), (p.surveyLimit.toNat, 1, 60),
   (p.proofLimit.toNat, 5, 120), (p.weightTolerance.toNat, 0, 20)]

/-- The number of the first field outside its range, from 1 (R183). -/
def timerFault (p : TimerParams) : Option Nat :=
  match (timerRanges p).findIdx? fun x => !(decide (x.2.1 ≤ x.1) && decide (x.1 ≤ x.2.2)) with
  | some i => some (i + 1)
  | none => none

/-- The settings given (R183). -/
def timersOf (p : TimerParams) : TimerSettings where
  reportLimit := p.reportLimit.toNat
  staleLimit := p.staleLimit.toNat
  engageLimit := p.engageLimit.toNat
  arrivalTolerance := p.arrivalTolerance.toNat
  overspeedMargin := p.overspeedMargin.toNat
  dockingWindow := p.dockingWindow.toNat
  latchLimit := p.latchLimit.toNat
  transferLimit := p.transferLimit.toNat
  surveyLimit := p.surveyLimit.toNat
  proofLimit := p.proofLimit.toNat
  weightTolerance := p.weightTolerance.toNat

/-- R183. -/
def State.timerWrite (s : State) (p : TimerParams) : State × Reply :=
  match timerFault p with
  | some n => s.refuseWith .range n
  | none => State.accept { s with timers := timersOf p }

/-- TIMER_WRITE (R183). -/
def execTimerWrite (o : OrderHead) (p : TimerParams) (s : State) : Host.Outcome State Fault Refusal :=
  order s o codeTimerWrite fun s => s.timerWrite p

/-- RESTART (R180, R184): the ANSWER is given to the uplink port before RESTART takes effect; a RESTART that is not
consumed is dropped. -/
def execRestart (o : OrderHead) (straps : Straps) (s : State) : Host.Outcome State Fault Refusal :=
  event s fun s =>
    let s := s.received .uplink
    if s.consumes o = true then (s.answer o codeRestart ⟨.accepted, 0, []⟩).restarted straps else s.dropOrder o

end Sys2Proof.Machine
end

