-- ==== Sys2Proof/Machine/Pins.lean ====
section
/-! DEFINITION. Power-on and the reset input (R179, R185). -/

namespace Sys2Proof.Machine

/-- POWER_ON (R185): the power-on state with the straps read, no frame in reception and none waiting. The reset input
keeps its level, which the plant gives (log 7). -/
def execPowerOn (straps : Straps) (s : State) : Host.Outcome State Fault Refusal :=
  .next { State.powerOnWith straps with resetInput := s.resetInput, pending := s.pending }

/-- RESET_INPUT_ASSERT (R179): the part holds its power-on state; frames in reception or waiting are abandoned. The strap
address holds until the release (R179, log 7). -/
def execResetInputAssert (s : State) : Host.Outcome State Fault Refusal :=
  .next { State.powerOnWith s.strapPins with
    strapAddress := s.strapAddress, resetInput := true, pending := s.pending }

/-- RESET_INPUT_RELEASE (R179): every block stands at its power-on value and the straps are read. An input that is not
asserted cannot be released (log 5). -/
def execResetInputRelease (straps : Straps) (s : State) : Host.Outcome State Fault Refusal :=
  .next (if s.resetInput = true then { State.powerOnWith straps with pending := s.pending } else s)

end Sys2Proof.Machine
end

