-- ==== Sys2Proof/Machine/ShaftOrders.lean ====
section
/-! DEFINITION. The orders of the shaft map: SHAFT_WRITE, ZONE_WRITE, ZONE_COMMIT, ZONE_QUERY and LANDING_WRITE (01). -/

namespace Sys2Proof.Machine

/-! ## SHAFT_WRITE -/

/-- A defined landing has its sill at or below a floor depth (R3). -/
def State.sillReaches (s : State) (floor : Nat) : Bool :=
  allLandings.any fun l =>
    match (s.landing l).record with
    | some rec => decide (floor ≤ rec.sill)
    | none => false

/-- A committed table that fails the length check under the floor in force is emptied (R4). -/
def State.emptyIfShort (s : State) (c : Compartment) : State :=
  if (s.comp c).committed.lengthFault s.shaft.floor = none then s else s.emptyTable c

/-- The four settings are within their ranges (R2, R3). -/
def shaftRange (floor tally guard separation : Nat) : Bool :=
  decide (10000 ≤ floor ∧ floor ≤ Config.maxDepth) && decide (guard ≤ 5000) &&
    decide (1000 ≤ separation ∧ separation ≤ 20000) && decide (tally ≤ floor)

/-- The checks of R3 in order, and the write with R4. -/
def State.shaftWrite (s : State) (floor tally guard separation : Nat) : State × Reply :=
  if s.supervised .a = true ∨ s.supervised .b = true then s.refuse .state
  else if shaftRange floor tally guard separation = false then s.refuse .range
  else if s.sillReaches floor = true then s.refuse .range
  else
    let s : State := { s with shaft := ⟨floor, tally, guard, separation⟩ }
    ((s.emptyIfShort .a).emptyIfShort .b).accept

/-- SHAFT_WRITE (R3, R4). -/
def execShaftWrite (o : OrderHead) (floor tally : Word) (guard separation : Half) (s : State) :
    Host.Outcome State Fault Refusal :=
  order s o codeShaftWrite fun s => s.shaftWrite floor.toNat tally.toNat guard.toNat separation.toNat

/-! ## ZONE_WRITE -/

/-- The entry form (R6). -/
def State.zoneWriteEntry (s : State) (compartment : Byte) (index upper ceiling : Nat) (kind landing : Byte) :
    State × Reply :=
  match compartmentOf compartment with
  | none => s.refuse .target
  | some c =>
    match zoneKindOf kind landing with
    | none => s.refuse .range
    | some k =>
      if 1 ≤ index ∧ index ≤ 48 ∧ upper ≤ Config.maxDepth then
        State.accept (s.modComp c fun x =>
          { x with
            shadow :=
              { x.shadow with
                entries := x.shadow.entries.setIfInBounds (index - 1) ⟨upper, min Config.maxCeiling ceiling, k⟩ } })
      else s.refuse .range

/-- ZONE_WRITE, entry form (R6). -/
def execZoneWriteEntry (o : OrderHead) (compartment index : Byte) (upper : Word) (ceiling : Half)
    (kind landing : Byte) (s : State) : Host.Outcome State Fault Refusal :=
  order s o codeZoneWrite fun s =>
    s.zoneWriteEntry compartment index.toNat upper.toNat ceiling.toNat kind landing

/-- The count form (R7). -/
def State.zoneWriteCount (s : State) (compartment : Byte) (count : Nat) : State × Reply :=
  match compartmentOf compartment with
  | none => s.refuse .target
  | some c =>
    if count ≤ 48 then
      State.accept (s.modComp c fun x => { x with shadow := { x.shadow with count := count } })
    else s.refuse .range

/-- ZONE_WRITE, count form (R7). -/
def execZoneWriteCount (o : OrderHead) (compartment count : Byte) (s : State) : Host.Outcome State Fault Refusal :=
  order s o codeZoneWrite fun s => s.zoneWriteCount compartment count.toNat

/-! ## ZONE_COMMIT -/

/-- Every hoist whose configuration names the compartment is PARKED (R8). -/
def State.allParked (s : State) (c : Compartment) : Bool :=
  (s.hoistsOf c).all fun h => (s.hoist h).state == .parked

/-- The committed table takes the shadow (R11). -/
def State.commitShadow (s : State) (c : Compartment) : State :=
  s.modComp c fun x => { x with committed := x.shadow.commitOver x.committed }

/-- Each hoist of the compartment gets the run its span overlaps, and its envelope is recomputed (R13, R76, R148). -/
def State.setRunsToSpans (s : State) (c : Compartment) : State :=
  (s.hoistsOf c).foldl
    (fun s h => (s.modHoist h fun r => { r with run := s.spanZones (s.comp c).committed r }).recompute h) s

/-- Validation, the conflict test under supervision, and the commit (R8 to R13). -/
def State.zoneCommit (s : State) (compartment : Byte) : State × Reply :=
  match compartmentOf compartment with
  | none => s.refuse .target
  | some c =>
    if s.supervised c = true ∧ s.allParked c = false then s.refuse .state
    else
      match s.tableFault c (s.comp c).shadow with
      | some d => s.refuseWith .table d
      | none =>
        if s.supervised c = true then
          match conflictZone (s.comp c).shadow (s.candidates c (s.comp c).shadow) with
          | some z => s.refuseWith .conflict z
          | none => ((s.commitShadow c).setRunsToSpans c).accept
        else (s.commitShadow c).accept

/-- ZONE_COMMIT (R8 to R13). -/
def execZoneCommit (o : OrderHead) (compartment : Byte) (s : State) : Host.Outcome State Fault Refusal :=
  order s o codeZoneCommit fun s => s.zoneCommit compartment

/-! ## ZONE_QUERY -/

/-- The holder of a zone in an answer, 0 for none (R186). -/
def State.holderCode (s : State) (c : Compartment) (z : Nat) : Nat :=
  match s.holder c z with
  | some h => h.val + 1
  | none => 0

/-- The data of index 0 (R14, R186). -/
def State.zoneCounts (s : State) (c : Compartment) : List Byte :=
  num8 (s.comp c).state.code ++ num8 (s.comp c).committed.count ++ num8 (s.comp c).shadow.count

/-- The data of a shadow entry (R14, R186). -/
def shadowEntryData (e : ZoneEntry) : List Byte :=
  num32 e.upper ++ num16 e.ceiling ++ num8 e.kind.code ++ num8 e.kind.landingCode

/-- The data of a committed entry (R14, R186). -/
def State.committedEntryData (s : State) (c : Compartment) (z : Nat) : List Byte :=
  let t := (s.comp c).committed
  let e := t.entry z
  num32 e.upper ++ num32 (t.lower s.shaft.floor z) ++ num16 e.ceiling ++ num8 e.kind.code ++
    num8 e.kind.landingCode ++ num8 (s.holderCode c z)

/-- The checks and answers of R14; the table selector is 0 COMMITTED, 1 SHADOW (R186). -/
def State.zoneQuery (s : State) (compartment table : Byte) (index : Nat) : State × Reply :=
  match compartmentOf compartment with
  | none => s.refuse .target
  | some c =>
    if 1 < table.toNat ∨ 48 < index then s.refuse .range
    else if index = 0 then s.acceptData (s.zoneCounts c)
    else if table = 1 then s.acceptData (shadowEntryData ((s.comp c).shadow.entry index))
    else if (s.comp c).committed.count < index then s.refuse .target
    else s.acceptData (s.committedEntryData c index)

/-- ZONE_QUERY (R14). -/
def execZoneQuery (o : OrderHead) (compartment table index : Byte) (s : State) :
    Host.Outcome State Fault Refusal :=
  order s o codeZoneQuery fun s => s.zoneQuery compartment table index.toNat

/-! ## LANDING_WRITE -/

/-- A present served set has a SUPERVISED compartment (R16, R18). -/
def State.servesSupervised (s : State) (a b : Bool) : Bool := (a && s.supervised .a) || (b && s.supervised .b)

/-- The same of a landing's present record; an undefined landing serves none. -/
def State.recordSupervised (s : State) (l : LandingId) : Bool :=
  match (s.landing l).record with
  | some rec => s.servesSupervised rec.servesA rec.servesB
  | none => false

/-- Some slot is OCCUPIED or RESERVED or holds an expected mass (R16). -/
def State.landingHolds (s : State) (l : LandingId) : Bool :=
  match (s.landing l).record with
  | some rec => rec.slots.any fun st => st.names.isSome
  | none => false

/-- A station address is the shuttle station of a defined landing other than `l` (R16). -/
def State.otherShuttle (s : State) (l : LandingId) (station : Nat) : Bool :=
  allLandings.any fun k =>
    k != l &&
      match (s.landing k).record with
      | some rec => rec.station == station
      | none => false

/-- A station address is the drive station of a configured hoist (R16). -/
def State.isDrive (s : State) (station : Nat) : Bool :=
  allHoists.any fun h =>
    match (s.hoist h).config with
    | some k => k.driveStation == station
    | none => false

/-- A committed table that fails the landing checks is emptied (R17). -/
def State.emptyIfMisfit (s : State) (c : Compartment) : State :=
  if s.landingFault c (s.comp c).committed = none then s else s.emptyTable c

/-- The landing's former record serves a compartment. -/
def LandingRec.formerlyServes (rec : Option LandingRec) (c : Compartment) : Bool :=
  match rec with
  | some x => x.serves c
  | none => false

/-- The landing is defined and its record written: every slot EMPTY, the pointer 0, the shuttle state UNKNOWN and no
holder; the committed tables of its former and new served set are tested (R17, R119). -/
def State.defineLanding (s : State) (l : LandingId) (rec : LandingRec) : State :=
  let former := (s.landing l).record
  let s := s.modLanding l fun x => { x with record := some rec, shuttle := .unknown, holder := .none }
  let s := if (LandingRec.formerlyServes former .a || rec.servesA) = true then s.emptyIfMisfit .a else s
  if (LandingRec.formerlyServes former .b || rec.servesB) = true then s.emptyIfMisfit .b else s

/-- Every field of LANDING_WRITE other than the landing is within its range (R16, check 2). -/
def State.landingRange (s : State) (sill slots : Nat) (mode : Option OrderMode) (served : Byte) (station : Nat) : Bool :=
  decide (1 ≤ sill ∧ sill + 1 ≤ s.shaft.floor) && (slots == 4 || slots == 8) && mode.isSome &&
    (served.getLsbD 0 || served.getLsbD 1) && decide (1 ≤ station ∧ station ≤ 62)

/-- The removal (R18): the landing becomes undefined and loses all it held, and each committed table that names it is
emptied. -/
def State.landingRemove (s : State) (landing : Byte) : State × Reply :=
  match landingOf landing with
  | none => s.refuse .target
  | some l =>
    if s.recordSupervised l = true then s.refuse .state
    else if s.landingHolds l = true then s.refuse .occupied
    else if (s.landing l).record.isNone = true then s.accept
    else
      let s := s.setLanding l .initial
      let s := if (s.comp .a).committed.names l = true then s.emptyTable .a else s
      State.accept (if (s.comp .b).committed.names l = true then s.emptyTable .b else s)

/-- The checks of R16 in order, and the write (R17). -/
def State.landingWrite (s : State) (landing : Byte) (sill slots : Nat) (mode served : Byte) (station : Nat) :
    State × Reply :=
  match landingOf landing with
  | none => s.refuse .target
  | some l =>
    match orderModeOf mode with
    | none => s.refuse .range
    | some om =>
      if s.landingRange sill slots (some om) served station = false then s.refuse .range
      else if s.recordSupervised l = true ∨ s.servesSupervised (served.getLsbD 0) (served.getLsbD 1) = true then
        s.refuse .state
      else if s.landingHolds l = true then s.refuse .occupied
      else if station = s.strapAddress.toNat ∨ s.otherShuttle l station = true ∨ s.isDrive station = true then
        s.refuse .conflict
      else
        State.accept (s.defineLanding l
          ⟨sill, om, served.getLsbD 0, served.getLsbD 1, station, List.replicate slots .empty, 0⟩)

/-- LANDING_WRITE with a slot count (R16, R17). A slot count of 0 is the removal (R16, log 26). -/
def execLandingWrite (o : OrderHead) (landing : Byte) (sill : Word) (slots mode served station : Byte) (s : State) :
    Host.Outcome State Fault Refusal :=
  order s o codeLandingWrite fun s =>
    if slots = 0 then s.landingRemove landing
    else s.landingWrite landing sill.toNat slots.toNat mode served station.toNat

/-- LANDING_WRITE with a slot count of 0 (R18); the other fields are not examined. -/
def execLandingRemove (o : OrderHead) (landing : Byte) (_sill : Word) (_mode _served _station : Byte) (s : State) :
    Host.Outcome State Fault Refusal :=
  order s o codeLandingWrite fun s => s.landingRemove landing

end Sys2Proof.Machine
end

