-- ==== Sys2Proof/Machine/Dispatch.lean ====
section
/-! DEFINITION. The meaning of each command. -/

namespace Sys2Proof.Machine

/-- A command's effect on everything but the queue of commands that wait. -/
def exec (i : Instr) (s : State) : Host.Outcome State Fault Refusal :=
  match i with
  | .powerOn straps => Sys2Proof.Machine.execPowerOn straps s
  | .resetInputAssert => Sys2Proof.Machine.execResetInputAssert s
  | .resetInputRelease straps => Sys2Proof.Machine.execResetInputRelease straps s
  | .partialFrameDiscard port => Sys2Proof.Machine.execPartialFrameDiscard port s
  | .frameDropped port f => Sys2Proof.Machine.execFrameDropped port f s
  | .framePassThrough port f => Sys2Proof.Machine.execFramePassThrough port f s
  | .demand address mode velocity => Sys2Proof.Machine.execDemand address mode velocity s
  | .report address w => Sys2Proof.Machine.execReport address w s
  | .shuttleReport address w => Sys2Proof.Machine.execShuttleReport address w s
  | .handoverTimerExpiry h => Sys2Proof.Machine.execHandoverTimerExpiry h s
  | .surveyTimerExpiry l => Sys2Proof.Machine.execSurveyTimerExpiry l s
  | .reportAgeExpiry h => Sys2Proof.Machine.execReportAgeExpiry h s
  | .demandAgeExpiry h => Sys2Proof.Machine.execDemandAgeExpiry h s
  | .engageTimeout h => Sys2Proof.Machine.execEngageTimeout h s
  | .parkTimeout h => Sys2Proof.Machine.execParkTimeout h s
  | .proofTimerExpiry h => Sys2Proof.Machine.execProofTimerExpiry h s
  | .secondTick => Sys2Proof.Machine.execSecondTick s
  | .unknownOrder o code params => Sys2Proof.Machine.execUnknownOrder o code params s
  | .orderDropped o code params => Sys2Proof.Machine.execOrderDropped o code params s
  | .shaftWrite o floor tally guard separation => Sys2Proof.Machine.execShaftWrite o floor tally guard separation s
  | .zoneWriteEntry o compartment index upper ceiling kind landing => Sys2Proof.Machine.execZoneWriteEntry o compartment index upper ceiling kind landing s
  | .zoneWriteCount o compartment count => Sys2Proof.Machine.execZoneWriteCount o compartment count s
  | .zoneCommit o compartment => Sys2Proof.Machine.execZoneCommit o compartment s
  | .zoneQuery o compartment table index => Sys2Proof.Machine.execZoneQuery o compartment table index s
  | .landingWrite o landing sill slots mode served station => Sys2Proof.Machine.execLandingWrite o landing sill slots mode served station s
  | .landingRemove o landing sill mode served station => Sys2Proof.Machine.execLandingRemove o landing sill mode served station s
  | .hoistConfig o hoist p => Sys2Proof.Machine.execHoistConfig o hoist p s
  | .hoistQuery o hoist => Sys2Proof.Machine.execHoistQuery o hoist s
  | .engage o hoist => Sys2Proof.Machine.execEngage o hoist s
  | .park o hoist => Sys2Proof.Machine.execPark o hoist s
  | .move o hoist target parkOnArrival => Sys2Proof.Machine.execMove o hoist target parkOnArrival s
  | .abort o hoist => Sys2Proof.Machine.execAbort o hoist s
  | .resetHoist o hoist => Sys2Proof.Machine.execResetHoist o hoist s
  | .ceiling o hoist value => Sys2Proof.Machine.execCeiling o hoist value s
  | .groupWrite o group set => Sys2Proof.Machine.execGroupWrite o group set s
  | .groupCeiling o group value => Sys2Proof.Machine.execGroupCeiling o group value s
  | .groupStop o group => Sys2Proof.Machine.execGroupStop o group s
  | .allStop o => Sys2Proof.Machine.execAllStop o s
  | .transfer o hoist kind selector mass => Sys2Proof.Machine.execTransfer o hoist kind selector mass s
  | .abortTransfer o hoist => Sys2Proof.Machine.execAbortTransfer o hoist s
  | .resolve o hoist outcome => Sys2Proof.Machine.execResolve o hoist outcome s
  | .blockSlot o landing slot => Sys2Proof.Machine.execBlockSlot o landing slot s
  | .unblockSlot o landing slot => Sys2Proof.Machine.execUnblockSlot o landing slot s
  | .landingQuery o landing => Sys2Proof.Machine.execLandingQuery o landing s
  | .declareMass o mass nominal kind place slot => Sys2Proof.Machine.execDeclareMass o mass nominal kind place slot s
  | .removeMass o mass => Sys2Proof.Machine.execRemoveMass o mass s
  | .verify o landing => Sys2Proof.Machine.execVerify o landing s
  | .releaseScope o compartment => Sys2Proof.Machine.execReleaseScope o compartment s
  | .admitScope o compartment => Sys2Proof.Machine.execAdmitScope o compartment s
  | .massQuery o mass => Sys2Proof.Machine.execMassQuery o mass s
  | .tallyQuery o => Sys2Proof.Machine.execTallyQuery o s
  | .prove o hoist => Sys2Proof.Machine.execProve o hoist s
  | .proofWrite o hours ceiling => Sys2Proof.Machine.execProofWrite o hours ceiling s
  | .maskWrite o set => Sys2Proof.Machine.execMaskWrite o set s
  | .scopeOptions o compartment scope stale => Sys2Proof.Machine.execScopeOptions o compartment scope stale s
  | .status o => Sys2Proof.Machine.execStatus o s
  | .readRecord o => Sys2Proof.Machine.execReadRecord o s
  | .logControl o setting => Sys2Proof.Machine.execLogControl o setting s
  | .timerWrite o p => Sys2Proof.Machine.execTimerWrite o p s
  | .restart o straps => Sys2Proof.Machine.execRestart o straps s

end Sys2Proof.Machine
end

