-- ==== Sys2Proof/Machine/Tick.lean ====
section
/-! DEFINITION. A millisecond of the time base with no command waiting (DESIGN CHOICE, log 3): each port sends a frame, and
the part's own timers put their expiries into the queue. -/

namespace Sys2Proof.Machine

/-- The oldest frame given to a port is sent (R175). -/
def sendOldest (p : Port) : List (Port × Frame) → List (Port × Frame)
  | [] => []
  | x :: rest => if x.1 = p then rest else x :: sendOldest p rest

/-- What the engage timer's expiry is in the hoist's state (R41, R43). -/
def engageExpiry (h : HoistId) : HoistState → Instr
  | .engaging => .engageTimeout h
  | .parking => .parkTimeout h
  | .unconfigured => .engageTimeout h
  | .releasedLocal => .engageTimeout h
  | .parked => .engageTimeout h
  | .proving => .engageTimeout h
  | .ready => .engageTimeout h
  | .moving => .engageTimeout h
  | .stopping => .engageTimeout h
  | .docked => .engageTimeout h
  | .tripped => .engageTimeout h

/-- The expiries of a hoist's timers that are due (log 16). -/
def State.hoistDue (s : State) (h : HoistId) : List Instr :=
  let r := s.hoist h
  (if due s.now r.reportTimer = true then [.reportAgeExpiry h] else []) ++
    (if due s.now r.demandTimer = true then [.demandAgeExpiry h] else []) ++
    (if due s.now r.engageTimer = true then [engageExpiry h r.state] else []) ++
    (if due s.now r.proofTimer = true then [.proofTimerExpiry h] else [])

/-- The expiries of a landing's timers that are due (log 16). -/
def State.landingDue (s : State) (l : LandingId) : List Instr :=
  (((s.landing l).queue.filter fun v => due s.now v.timer).map fun v => .handoverTimerExpiry v.hoist) ++
    (if due s.now (s.landing l).surveyTimer = true then [.surveyTimerExpiry l] else [])

/-- The events that are due now, in the order in which they are taken (DESIGN CHOICE, log 16). -/
def State.dueEvents (s : State) : List Instr :=
  (if s.nextSecond ≤ s.now then [.secondTick] else []) ++ allHoists.flatMap s.hoistDue ++
    allLandings.flatMap s.landingDue

/-- One millisecond: each port sends its oldest frame, the time base advances, and what falls due joins the queue (log 3).
While the reset input is asserted the power-on state is held (R179). -/
def State.tick (s : State) : State :=
  if s.resetInput = true then s
  else
    let s : State :=
      { s with outbox := sendOldest .field (sendOldest .uplink s.outbox), now := s.now + 1 }
    { s with pending := s.dueEvents }

end Sys2Proof.Machine
end

