-- ==== Sys2Proof/WellFormed.lean ====
section
/-! DEFINITION. Which terms are commands that can reach the part: a frame is one the wire can carry (R173) and one of its
row, and an order has an address and a form of its row (R175, R180). -/

namespace Sys2Proof

open Sys2Proof.Machine

/-- A frame the wire can carry: its length byte counts its payload (R173). -/
def Frame.fits (f : Frame) : Bool := decide (f.payload.length ≤ 255)

/-- The address of a frame that R175's step 2 lets through. -/
def liveAddress (a : Byte) : Bool := a != 0

/-- An ORDER whose parameters fit a frame (R173, R186). -/
def orderFits (o : OrderHead) (params : List Byte) : Bool :=
  liveAddress o.address && decide (params.length ≤ 253)

/-- The fate of a frame is to be dropped. -/
def isDropped : Fate → Bool
  | .dropped _ => true
  | .passed => false
  | .handled => false

/-- Well-formed commands, for a part with the given strap address. -/
def Instr.wellFormed (strap : Straps) : Instr → Bool
  | .powerOn _ => true
  | .resetInputAssert => true
  | .resetInputRelease _ => true
  | .partialFrameDiscard _ => true
  | .frameDropped p f => f.fits && isDropped (frameFate p f)
  | .framePassThrough p f => f.fits && frameFate p f == .passed
  | .demand a _ _ => liveAddress a
  | .report a _ => liveAddress a
  | .shuttleReport a w => liveAddress a && decide (w.survey.length ≤ 8)
  | .handoverTimerExpiry _ => true
  | .surveyTimerExpiry _ => true
  | .reportAgeExpiry _ => true
  | .demandAgeExpiry _ => true
  | .engageTimeout _ => true
  | .parkTimeout _ => true
  | .proofTimerExpiry _ => true
  | .secondTick => true
  | .unknownOrder o code params =>
    orderFits o params && (orderFault code params).isSome && ownStation strap == some o.address
  | .orderDropped o code params =>
    orderFits o params && (orderFault code params).isSome && ownStation strap != some o.address
  | .shaftWrite o _ _ _ _ => liveAddress o.address
  | .zoneWriteEntry o _ _ _ _ _ _ => liveAddress o.address
  | .zoneWriteCount o _ _ => liveAddress o.address
  | .zoneCommit o _ => liveAddress o.address
  | .zoneQuery o _ _ _ => liveAddress o.address
  | .landingWrite o _ _ slots _ _ _ => liveAddress o.address && slots != 0
  | .landingRemove o _ _ _ _ _ => liveAddress o.address
  | .hoistConfig o _ _ => liveAddress o.address
  | .hoistQuery o _ => liveAddress o.address
  | .engage o _ => liveAddress o.address
  | .park o _ => liveAddress o.address
  | .move o _ _ _ => liveAddress o.address
  | .abort o _ => liveAddress o.address
  | .resetHoist o _ => liveAddress o.address
  | .ceiling o _ _ => liveAddress o.address
  | .groupWrite o _ _ => liveAddress o.address
  | .groupCeiling o _ _ => liveAddress o.address
  | .groupStop o _ => liveAddress o.address
  | .allStop o => liveAddress o.address
  | .transfer o _ _ _ _ => liveAddress o.address
  | .abortTransfer o _ => liveAddress o.address
  | .resolve o _ _ => liveAddress o.address
  | .blockSlot o _ _ => liveAddress o.address
  | .unblockSlot o _ _ => liveAddress o.address
  | .landingQuery o _ => liveAddress o.address
  | .declareMass o _ _ _ _ _ => liveAddress o.address
  | .removeMass o _ => liveAddress o.address
  | .verify o _ => liveAddress o.address
  | .releaseScope o _ => liveAddress o.address
  | .admitScope o _ => liveAddress o.address
  | .massQuery o _ => liveAddress o.address
  | .tallyQuery o => liveAddress o.address
  | .prove o _ => liveAddress o.address
  | .proofWrite o _ _ => liveAddress o.address
  | .maskWrite o _ => liveAddress o.address
  | .scopeOptions o _ _ _ => liveAddress o.address
  | .status o => liveAddress o.address
  | .readRecord o => liveAddress o.address
  | .logControl o _ => liveAddress o.address
  | .timerWrite o _ => liveAddress o.address
  | .restart o _ => liveAddress o.address

end Sys2Proof
end

