-- ==== Sys2Proof/Safety.lean ====
section
/-! DEFINITION. What a sound state of the part is, and the words the statements use: an ORDER the part takes, the ANSWER it
is given, and what a change of claims may touch. -/

namespace Sys2Proof.Machine

/-! ## Words of the statements -/

/-- The part takes an ORDER with this head: the reset input is not asserted (R179) and the ORDER is addressed to its strap
address (R180). -/
abbrev State.Takes (s : State) (o : OrderHead) : Prop := s.resetInput = false ∧ s.consumes o = true

/-- An ANSWER frame: the strap address, the tag, the code, the result, the detail and the data (R181, R186). -/
def answerFrame (s : State) (o : OrderHead) (code : Byte) (r : Result) (detail : Nat) (data : List Byte) : Frame :=
  makeFrame (s.strapAddress.setWidth 8) kindAnswer (o.tag :: code :: byte r.code :: byte detail :: data)

/-- The state once an ORDER has been received and its ANSWER given to the uplink (R173, R181). -/
def State.answered (s : State) (o : OrderHead) (code : Byte) (r : Result) (detail : Nat) (data : List Byte) : State :=
  { s with
    uplinkReceiving := false
    outbox := s.outbox ++ [(.uplink, answerFrame s o code r detail data)] }

/-- An indicator has been set: the indicators are `x`, LINK is latched, and the attention output is as R115 has it (R114,
R115, R182). -/
def State.linked (s : State) (x : LinkErrors) : State :=
  { s with links := x, latched := s.latched ||| 0x800, attention := asserted (s.latched ||| 0x800) s.mask }

/-- A category has been latched: its bit is priority less 1, and the attention output is as R115 has it (R114, R186). -/
def State.latchedBit (s : State) (bit : BitVec 13) : State :=
  { s with latched := s.latched ||| bit, attention := asserted (s.latched ||| bit) s.mask }

/-- A MOVING hoist as a cause of stopping leaves it (R48, R72, R90, R106, R112): the demand-age timer runs on. -/
def Hoist.stopped (r : Hoist) (reason : StopReason) : Hoist :=
  { r with
    state := .stopping
    extent := []
    move := r.move.map fun m => { m with stopReason := some reason }
    tripLineOpen := false
    engageTimer := none
    proofTimer := none
    stopAllowance := some r.speed.natAbs
    envDown := 0
    envUp := 0 }

/-- A hoist as it stands in a state that times nothing, has no envelope and is not demand-watched: PARKED and
RELEASED_LOCAL (R33, R90, R106, R112). -/
def Hoist.atRest (r : Hoist) (st : HoistState) : Hoist :=
  { r with
    state := st
    tripLineOpen := false
    demandTimer := none
    engageTimer := none
    proofTimer := none
    stopAllowance := none
    envDown := 0
    envUp := 0 }

/-- The hoist of a state replaced. -/
abbrev State.withHoist (s : State) (h : HoistId) (r : Hoist) : State := { s with hoists := s.hoists.set h.val r }

/-- The landing of a state replaced. -/
abbrev State.withLanding (s : State) (l : LandingId) (r : Landing) : State :=
  { s with landings := s.landings.set l.val r }

/-- The mass of a state replaced. -/
abbrev State.withMass (s : State) (m : MassId) (r : Mass) : State := { s with masses := s.masses.set m.val r }

/-- A hoist after a change of claims: its run, pending extent and envelope may differ, and WAITED of its move part may have
been set (R65, R66, R80). -/
def Hoist.OnlyClaims (r r' : Hoist) : Prop :=
  r' = { r with run := r'.run, extent := r'.extent, envDown := r'.envDown, envUp := r'.envUp, move := r'.move } ∧
    (r'.move = r.move ∨ r'.move = r.setWaited.move)

/-- The hoist once the tracker has taken a REPORT of it: the fields of the REPORT with the values derived from them, the travel
of an open move, the timer restarted, and the envelopes copied into the reference (R24 to R31, R92, R103). -/
def State.tracked (s : State) (h : HoistId) (k : HoistConfig) (w : ReportWire) : Hoist :=
  let r := s.hoist h
  let drum := w.drumDepth.toNat
  let load := min w.load.toNat 100000
  let rope := drum / 1000 + k.sheaveOffset
  let suspended :=
    match r.carried with
    | .none => k.tare
    | .mass m => k.tare + (((s.mass m).measured.orElse fun _ => (s.mass m).nominal).getD 0)
    | .unknownLoad => load
  let stretch := min (suspended * rope * k.ropeCoeff / 100000) k.stretchCap
  let depth := min (drum + stretch) s.shaft.floor
  { r with
    latest := some
      { drumDepth := drum
        speed := w.speed.toInt
        mode := if w.mode = 0 then .park else if w.mode = 1 then .run else .invalid
        brake := if w.flags.getLsbD 0 = true then .lifted else .set
        torqueProven := w.flags.getLsbD 1
        proofResult :=
          if w.flags.getLsbD 3 = w.flags.getLsbD 4 then .none else if w.flags.getLsbD 3 = true then .pass else .fail
        envWarning := w.flags.getLsbD 2
        load := load
        fault := w.fault.toNat
        ropeLength := rope
        suspended := suspended
        stretch := stretch
        depth := depth
        spanTop := depth - k.height }
    freshness := .fresh
    reportTimer := some (s.now + s.timers.reportLimit)
    lastReportTime := some s.now
    travel :=
      if r.moveOpen = true then min 16777215 (r.travel + ((depth : Int) - r.depth).natAbs) else r.travel
    refDown := r.envDown
    refUp := r.envUp }

/-- The landing a hoist docks at: it serves the compartment, its sill lies within the docking window of C, no other such
landing is nearer or as near and lower-numbered, and its zone lies in the hoist's run (R123, check 4). -/
def State.DocksAt (s : State) (h : HoistId) (c : Compartment) (l : LandingId) (rec : LandingRec) : Prop :=
  let far := fun (x : LandingRec) => ((x.sill : Int) - (s.hoist h).depth).natAbs
  let table := (s.comp c).committed
  (s.landing l).record = some rec ∧ rec.serves c = true ∧ far rec ≤ s.timers.dockingWindow ∧
    (∀ y x, (s.landing y).record = some x → x.serves c = true → far x ≤ s.timers.dockingWindow →
      far rec < far x ∨ (far rec = far x ∧ l ≤ y)) ∧
    ∃ z, 1 ≤ z ∧ z ≤ table.count ∧ (table.entry z).kind = .landing l ∧ inRun (s.hoist h).run z = true ∧
      ∀ y, 1 ≤ y → y < z → (table.entry y).kind ≠ .landing l

/-- A TRANSFER passes checks 5 to 10 of R123 at its docking landing. -/
structure State.TransferFits (s : State) (h : HoistId) (c : Compartment) (l : LandingId) (rec : LandingRec)
    (q : TransferRequest) : Prop where
  index : ∀ i, q.slot = some i → i < rec.slots.length
  survey : (s.landing l).survey = false
  room : (s.landing l).queue.length < 2
  sides : ∀ x ∈ (s.landing l).queue, (s.hoist x.hoist).inCompartment c = false
  masses : ∀ y, ∀ x ∈ (s.landing y).queue, ∀ m,
    (if q.kind = .deposit then (s.hoist h).carried = .mass m else q.mass = some m) → x.mass ≠ some m
  slots : ∀ x ∈ (s.landing l).queue, ∀ i, q.slot = some i → x.slot ≠ some i
  carried : if q.kind = .deposit then ∃ m, (s.hoist h).carried = .mass m else (s.hoist h).carried = .none
  slot : ∀ i, q.slot = some i → rec.slots[i]? = some .empty ∧ q.kind = .deposit ∨
    ∃ m, rec.slots[i]? = some (.occupied m) ∧ q.kind = .collect ∧ (q.mass = some m ∨ q.mass = none)
  mass : ∀ m, q.mass = some m → q.kind = .collect ∧ .occupied m ∈ rec.slots

/-! ## Annex and answers, byte by byte (R186) -/

/-- The place of a name in the order in which R186 codes it, counted from 0. -/
def coded {α : Type} [BEq α] (names : List α) (x : α) : Byte := byte (names.idxOf x)

def Hoist.stateByte (r : Hoist) : Byte :=
  coded [.unconfigured, .releasedLocal, .parked, .proving, .engaging, .ready, .moving, .stopping, .docked, .parking,
    .tripped] r.state

/-- 0 NONE, 1 to 96 MASS(m), 255 UNKNOWN_LOAD. -/
def Hoist.carriedByte (r : Hoist) : Byte :=
  match r.carried with
  | .none => 0
  | .mass m => byte (m.val + 1)
  | .unknownLoad => 255

/-- A mass, 0 for none. -/
def massByte (m : Option MassId) : Byte := byte (m.elim 0 fun x => x.val + 1)

def flagByte (x : Bool) : Byte := if x = true then 1 else 0

/-- The 27 bytes of the annex of a hoist in a compartment (R177). -/
def State.annexBytes (s : State) (h : HoistId) (c : Compartment) : List Byte :=
  let r := s.hoist h
  let table := (s.comp c).committed
  [r.stateByte] ++ num32 (r.latest.elim 0 fun l => l.depth) ++ num16 (r.latest.elim 0 fun l => l.stretch) ++
    num16 r.envDown ++ num16 r.envUp ++ num32 (r.run.elim 0 fun x => table.upper x.top) ++
    num32 (r.run.elim 0 fun x => table.lower s.shaft.floor x.bottom) ++ [r.carriedByte] ++ int16 r.lastVelocity ++
    [coded [.none, .envelope, .saturated, .state, .mismatch] r.lastReason,
      flagByte (r.move.elim false fun m => m.waited), coded [.current, .due, .lapsed] r.proofStatus] ++
    be16 (s.latched.setWidth 16)

/-- The 62 bytes that answer HOIST_QUERY of a configured hoist (R60). -/
def State.hoistBytes (s : State) (h : HoistId) (k : HoistConfig) : List Byte :=
  let r := s.hoist h
  [1, if k.compartment = .a then 0 else 1, byte k.rank, byte k.driveStation] ++ num16 k.tare ++ num16 k.height ++
    [byte k.sheaveOffset, byte k.ropeCoeff] ++ num16 k.stretchCap ++ num16 k.decel ++ num16 k.defaultCeiling ++
    [byte k.precedence, r.stateByte,
      r.tripCause.elim 0 fun x => coded [.overtravel, .overspeed, .separation, .driveFault, .proofFail, .reportLoss,
        .parkFail, .stale] x + 1,
      r.carriedByte, flagByte r.weighPending, coded [.none, .fresh, .lapsed] r.freshness] ++
    (r.latest.elim ([0, 0, 0, 0] : List Byte) fun l =>
      [coded [.park, .run, .invalid] l.mode, coded [.set, .lifted] l.brake] ++ int16 l.speed) ++
    num32 (r.latest.elim 0 fun l => l.depth) ++ num16 (r.latest.elim 0 fun l => l.stretch) ++
    num32 (r.latest.elim 0 fun l => l.spanTop) ++ num16 r.profileCeiling ++
    (r.move.elim (List.replicate 17 (0 : Byte)) fun m => [if m.isOpen = true then 1 else 2] ++ num32 m.target ++
      [coded [.down, .up] m.direction, flagByte m.parkOnArrival] ++ num32 m.startDepth ++ num32 m.startTime ++
      [flagByte m.waited + 2 * flagByte m.clamped + 4 * flagByte m.degraded,
        m.stopReason.elim 0 fun x => coded [.stopped, .stale] x + 1]) ++
    num24 r.travel ++
    [flagByte ((s.group 0).getLsbD h.val) + 2 * flagByte ((s.group 1).getLsbD h.val) +
        4 * flagByte ((s.group 2).getLsbD h.val) + 8 * flagByte ((s.group 3).getLsbD h.val),
      byte (r.run.elim 0 fun x => x.top), byte (r.run.elim 0 fun x => x.bottom), byte (r.extent.headD 0)]

/-- The bytes that answer LANDING_QUERY of a defined landing (R140). -/
def State.landingBytes (s : State) (l : LandingId) (rec : LandingRec) : List Byte :=
  let x := s.landing l
  ([1] : List Byte) ++ num32 rec.sill ++
    [byte rec.slots.length, coded [.sequential, .interleaved] rec.orderMode,
      flagByte rec.servesA + 2 * flagByte rec.servesB, byte rec.station, byte rec.pointer] ++
    (rec.slots.flatMap fun st =>
      match st with
      | .empty => ([0, 0] : List Byte)
      | .occupied m => [1, massByte (some m)]
      | .reserved m => [2, massByte (some m)]
      | .unverified e => [3, massByte e]
      | .blocked e => [4, massByte e]) ++
    [coded [.idle, .latched, .busy, .done, .fault, .unknown] x.shuttle,
      match x.holder with
      | .none => 0
      | .handover h => byte (h.val + 1)
      | .survey => 255,
      flagByte x.survey, byte x.queue.length] ++
    x.queue.flatMap fun v =>
      [byte (v.hoist.val + 1), byte (l.val + 1), coded [.deposit, .collect] v.kind, byte (v.slot.getD 255),
        massByte v.mass, coded [.waiting, .latching, .transferring, .unlatching, .stuck] v.phase] ++
      (v.timer.elim ([0, 0, 0, 0, 0] : List Byte) fun e => [1] ++ num32 (e - s.now)) ++
      [v.outcome.elim 0 fun y => coded [.done, .failed, .abandoned] y + 1, flagByte v.settled, flagByte v.waited]

/-- The 14 bytes that answer MASS_QUERY, with the open handover of which the mass is the mass (R155). -/
def State.massBytes (s : State) (m : MassId) (handover : Option (LandingId × Handover)) : List Byte :=
  let r := s.mass m
  (match r.status with
    | .absent => ([0] : List Byte)
    | .placed _ => [1]
    | .uncertain _ => [2]) ++
    num16 (r.nominal.getD 0) ++ [flagByte r.measured.isSome] ++ num32 (r.measured.getD 0) ++
    (match r.status with
      | .placed (.slot l i) => [1, byte (l.val + 1), byte i]
      | .placed (.hoist h) => [2, byte (h.val + 1), 0]
      | .uncertain (some (.slot l i)) => [3, byte (l.val + 1), byte i]
      | .uncertain (some (.hoist h)) => [4, byte (h.val + 1), 0]
      | .uncertain none => [0, 0, 0]
      | .absent => [0, 0, 0]) ++
    handover.elim ([0, 0, 0] : List Byte) fun v => [byte (v.2.hoist.val + 1), byte (v.1.val + 1),
      coded [.waiting, .latching, .transferring, .unlatching, .stuck] v.2.phase]

/-- The figure of a mass as it counts for a compartment, or for the whole (R156). -/
def State.potential (s : State) (counts : Option Compartment → Bool) (m : MassId) : Nat :=
  let weight := ((s.mass m).measured.orElse fun _ => (s.mass m).nominal).getD 0
  let figure := fun (depth : Nat) => weight * (s.shaft.tallyBase - depth) * 980665 / 100000000000
  match (s.mass m).status with
  | .placed (.slot l _) =>
    (s.landing l).record.elim 0 fun rec =>
      if counts (some (if rec.servesA = true then .a else .b)) = true then figure rec.sill else 0
  | .placed (.hoist h) =>
    (s.hoist h).latest.elim 0 fun l =>
      if counts ((s.hoist h).config.map fun k => k.compartment) = true then figure l.depth else 0
  | .absent => 0
  | .uncertain _ => 0

/-- The 14 bytes that answer TALLY_QUERY (R156). -/
def State.tallyBytes (s : State) : List Byte :=
  let sum := fun (counts : Option Compartment → Bool) => num32 ((List.finRange 96).map (s.potential counts)).sum
  let placed := fun (m : MassId) =>
    match (s.mass m).status with
    | .placed _ => true
    | .absent => false
    | .uncertain _ => false
  let uncertain := fun (m : MassId) =>
    match (s.mass m).status with
    | .uncertain _ => true
    | .absent => false
    | .placed _ => false
  sum (fun _ => true) ++ sum (· == some .a) ++ sum (· == some .b) ++
    [byte ((List.finRange 96).filter placed).length, byte ((List.finRange 96).filter uncertain).length]

/-! ## Slots -/

/-- The slot a landing's former place of a mass is left as, when the mass is found elsewhere (R130, R154). -/
def SlotState.doubted (st : SlotState) (t : MassId) : SlotState :=
  if st = .occupied t ∨ st = .unverified (some t) then .unverified none
  else if st = .blocked (some t) then .blocked none
  else st

/-- The mass is the mass of an open handover of a hoist other than `h`, where one is given (R123, R130, R154). -/
def State.InHandover (s : State) (h : Option HoistId) (m : MassId) : Prop :=
  ∃ y, ∃ v ∈ (s.landing y).queue, h ≠ some v.hoist ∧ v.mass = some m

/-- The slot and the mass that a handover has at its grant (R121, R127): the slot named, if it is in the state needed; the lowest
slot that holds the mass named; or the first slot of the scan that fits and that no other handover uses. -/
def State.Chooses (s : State) (l : LandingId) (rec : LandingRec) (v : Handover) (i : Nat) (m : MassId) : Prop :=
  let fits := fun (j : Nat) (x : MassId) =>
    (v.kind = .deposit ∧ rec.slots[j]? = some .empty ∧ v.mass = some x) ∨
      (v.kind = .collect ∧ rec.slots[j]? = some (.occupied x) ∧ (v.mass = none ∨ v.mass = some x))
  let visited := fun (n : Nat) =>
    if rec.orderMode = .sequential then (rec.pointer + n) % rec.slots.length else rec.pointer ^^^ n
  let used := fun (j : Nat) => (∃ u ∈ (s.landing l).queue, u.hoist ≠ v.hoist ∧ u.slot = some j) ∨
    ∃ x, rec.slots[j]? = some (.occupied x) ∧ s.InHandover (some v.hoist) x
  match v.slot with
  | some j => i = j ∧ fits j m
  | none =>
    if v.kind = .collect ∧ v.mass ≠ none then fits i m ∧ ∀ j, j < i → ¬fits j m
    else ∃ n, n < rec.slots.length ∧ i = visited n ∧ fits i m ∧ ¬used i ∧
      ∀ j, j < n → used (visited j) ∨ ∀ x, ¬fits (visited j) x

/-! ## What an event leaves alone -/

/-- The fields of a hoist that claims, state changes and trips leave alone. -/
structure Hoist.SameTrack (r r' : Hoist) : Prop where
  config : r'.config = r.config
  latest : r'.latest = r.latest
  freshness : r'.freshness = r.freshness
  reportTimer : r'.reportTimer = r.reportTimer
  lastReportTime : r'.lastReportTime = r.lastReportTime
  travel : r'.travel = r.travel
  weighPending : r'.weighPending = r.weighPending
  carried : r'.carried = r.carried
  profileCeiling : r'.profileCeiling = r.profileCeiling
  refDown : r'.refDown = r.refDown
  refUp : r'.refUp = r.refUp
  lastVelocity : r'.lastVelocity = r.lastVelocity
  lastReason : r'.lastReason = r.lastReason

/-- Two states that differ in their hoists, the attention output and its categories, and the record queue alone. -/
def State.OnlyHoists (s t : State) : Prop :=
  t = { s with
    hoists := t.hoists
    latched := t.latched
    attention := t.attention
    records := t.records
    overflow := t.overflow }

/-- The commands after which the part may stand at its power-on values: power-on, the two edges of the reset input, and
RESTART (R179, R184, R185). -/
def Starts (i : Instr) : Prop :=
  (∃ x, i = .powerOn x) ∨ i = .resetInputAssert ∨ (∃ x, i = .resetInputRelease x) ∨ ∃ o x, i = .restart o x

/-- The head and the code of an ORDER that stands in the order table with its right length (R180, R186). -/
def tableOrder : Instr → Option (OrderHead × Byte)
  | .powerOn _ => none
  | .resetInputAssert => none
  | .resetInputRelease _ => none
  | .partialFrameDiscard _ => none
  | .frameDropped _ _ => none
  | .framePassThrough _ _ => none
  | .demand _ _ _ => none
  | .report _ _ => none
  | .shuttleReport _ _ => none
  | .handoverTimerExpiry _ => none
  | .surveyTimerExpiry _ => none
  | .reportAgeExpiry _ => none
  | .demandAgeExpiry _ => none
  | .engageTimeout _ => none
  | .parkTimeout _ => none
  | .proofTimerExpiry _ => none
  | .secondTick => none
  | .unknownOrder _ _ _ => none
  | .orderDropped _ _ _ => none
  | .shaftWrite o _ _ _ _ => some (o, codeShaftWrite)
  | .zoneWriteEntry o _ _ _ _ _ _ => some (o, codeZoneWrite)
  | .zoneWriteCount o _ _ => some (o, codeZoneWrite)
  | .zoneCommit o _ => some (o, codeZoneCommit)
  | .zoneQuery o _ _ _ => some (o, codeZoneQuery)
  | .landingWrite o _ _ _ _ _ _ => some (o, codeLandingWrite)
  | .landingRemove o _ _ _ _ _ => some (o, codeLandingWrite)
  | .hoistConfig o _ _ => some (o, codeHoistConfig)
  | .hoistQuery o _ => some (o, codeHoistQuery)
  | .engage o _ => some (o, codeEngage)
  | .park o _ => some (o, codePark)
  | .move o _ _ _ => some (o, codeMove)
  | .abort o _ => some (o, codeAbort)
  | .resetHoist o _ => some (o, codeResetHoist)
  | .ceiling o _ _ => some (o, codeCeiling)
  | .groupWrite o _ _ => some (o, codeGroupWrite)
  | .groupCeiling o _ _ => some (o, codeGroupCeiling)
  | .groupStop o _ => some (o, codeGroupStop)
  | .allStop o => some (o, codeAllStop)
  | .transfer o _ _ _ _ => some (o, codeTransfer)
  | .abortTransfer o _ => some (o, codeAbortTransfer)
  | .resolve o _ _ => some (o, codeResolve)
  | .blockSlot o _ _ => some (o, codeBlockSlot)
  | .unblockSlot o _ _ => some (o, codeUnblockSlot)
  | .landingQuery o _ => some (o, codeLandingQuery)
  | .declareMass o _ _ _ _ _ => some (o, codeDeclareMass)
  | .removeMass o _ => some (o, codeRemoveMass)
  | .verify o _ => some (o, codeVerify)
  | .releaseScope o _ => some (o, codeReleaseScope)
  | .admitScope o _ => some (o, codeAdmitScope)
  | .massQuery o _ => some (o, codeMassQuery)
  | .tallyQuery o => some (o, codeTallyQuery)
  | .prove o _ => some (o, codeProve)
  | .proofWrite o _ _ => some (o, codeProofWrite)
  | .maskWrite o _ => some (o, codeMaskWrite)
  | .scopeOptions o _ _ _ => some (o, codeScopeOptions)
  | .status o => some (o, codeStatus)
  | .readRecord o => some (o, codeReadRecord)
  | .logControl o _ => some (o, codeLogControl)
  | .timerWrite o _ => some (o, codeTimerWrite)
  | .restart o _ => some (o, codeRestart)

/-- Every block's items at the values the spec gives for power-on (R1, R2, R5, R15, R21, R30 to R36, R57, R62, R82, R103,
R114, R119, R141, R157, R166, R182, R183). -/
structure State.AtPowerOn (t : State) : Prop where
  shaft : t.shaft = ⟨1600000, 0, 1000, 5000⟩
  comp : ∀ c, (t.comp c).state = .unconfigured ∧ (t.comp c).tripScope = .isolate ∧ (t.comp c).staleAction = .stop
  tables : ∀ c, ((t.comp c).committed.count = 0 ∧ (t.comp c).shadow.count = 0) ∧
    ∀ z, (t.comp c).committed.entry z = ⟨0, 0, .plain⟩ ∧ (t.comp c).shadow.entry z = ⟨0, 0, .plain⟩
  landing : ∀ l, t.landing l = ⟨none, [], .none, .unknown, false, none⟩
  hoist : ∀ h, t.hoist h =
    { config := none, latest := none, freshness := .none, reportTimer := none, demandTimer := none, travel := 0,
      weighPending := false, state := .unconfigured, tripCause := none, overtaken := (t.hoist h).overtaken,
      carried := .none, profileCeiling := 0,
      engageTimer := none, move := none, run := none, extent := [], envDown := 0, envUp := 0, refDown := 0, refUp := 0,
      lastVelocity := 0, lastReason := .none, tripLineOpen := true, stopAllowance := none, lastReportTime := none,
      lastPass := none, proofStatus := .lapsed, proofTimer := none }
  mass : ∀ m, t.mass m = ⟨.absent, none, none⟩
  group : ∀ g, t.group g = 0
  timers : t.timers = ⟨200, 200, 5, 50, 500, 25, 10, 90, 20, 30, 5⟩
  proof : t.proofInterval = 604800 ∧ t.degradedCeiling = 2000
  attention : t.latched = 0 ∧ t.mask = 0 ∧ t.attention = false
  records : t.records = [] ∧ t.logging = true ∧ t.overflow = false
  links : t.links = ⟨false, false, false, false⟩
  seconds : t.seconds = 0

/-! ## Invariants -/

/-- The attention output follows the unmasked latched set, and TRIP is never masked (R115). -/
abbrev State.AttentionOk (s : State) : Prop :=
  s.attention = asserted s.latched s.mask ∧ s.mask.getLsbD Category.trip.bit = false

/-- The record queue never holds more than 12 records, and holds none while logging is off (R166, R168, R171). -/
abbrev State.RecordsOk (s : State) : Prop :=
  s.records.length ≤ Config.recordCapacity ∧ (s.logging = false → s.records = [] ∧ s.overflow = false)

/-- What holds of one hoist between events: its trip line is open exactly in TRIPPED and UNCONFIGURED (R112); its
demand-age, engage and proof timers run in the states they time alone (R33, R36, R157); the stop allowance is present in
STOPPING alone (R106); the envelope is 0 outside READY and MOVING (R90). -/
abbrev Hoist.Sound (r : Hoist) : Prop :=
  r.tripLineOpen = r.state.lineOpen ∧ r.demandTimer.isSome = r.state.watched ∧
    r.engageTimer.isSome = r.state.timesEngage ∧ r.proofTimer.isSome = (r.state == .proving) ∧
    r.stopAllowance.isSome = (r.state == .stopping) ∧
    (r.state.takesVelocity = false → r.envDown = 0 ∧ r.envUp = 0)

/-- A hoist's state follows its compartment: it is in a supervised state exactly while it is configured and its
compartment is SUPERVISED (R37). -/
abbrev State.Follows (s : State) (r : Hoist) : Prop :=
  r.state.supervised =
    match r.config with
    | some k => s.supervised k.compartment
    | none => false

/-- Every hoist's state follows its compartment (R37). -/
abbrev State.Following (s : State) : Prop := ∀ h, s.Follows (s.hoist h)

/-- What holds of the part between commands. -/
abbrev State.Sound (s : State) : Prop := s.AttentionOk ∧ s.RecordsOk ∧ ∀ h, (s.hoist h).Sound

/-- Two runs of one compartment have no zone in common (R61). -/
abbrev apart : Option Run → Option Run → Prop
  | some a, some b => a.bottom < b.top ∨ b.bottom < a.top
  | none, _ => True
  | _, none => True

/-- One run lies above another (R62). -/
abbrev above : Option Run → Option Run → Prop
  | some a, some b => a.bottom < b.top
  | none, _ => True
  | _, none => True

/-- A run that is not empty is a block of zones numbered from 1, and the pending extent carries it on, zone by zone, in the
direction of the move; an empty run has none (R62, R64). -/
abbrev Hoist.ExtentOk (r : Hoist) : Prop :=
  match r.run with
  | some run =>
    1 ≤ run.top ∧ run.top ≤ run.bottom ∧
      match r.moveDirection with
      | .down => r.extent = List.range' (run.bottom + 1) r.extent.length
      | .up => r.extent.length < run.top ∧
          r.extent = (List.range' (run.top - r.extent.length) r.extent.length).reverse
  | none => r.extent = []

/-- What holds of the claims between commands: outside supervision there are none (R62, R146), a move is open exactly in MOVING
and STOPPING (R36), an extent pends in MOVING alone (R64, R72), extents and runs fit together, no zone lies in two runs (R61),
and an awaited zone is held by another hoist (R65). -/
structure State.ClaimsSound (s : State) : Prop where
  outside : ∀ h, (s.hoist h).state.supervised = false → (s.hoist h).run = none
  moves : ∀ h, (s.hoist h).moveOpen = true ↔ (s.hoist h).state = .moving ∨ (s.hoist h).state = .stopping
  pends : ∀ h, (s.hoist h).extent ≠ [] → (s.hoist h).state = .moving
  extents : ∀ h, (s.hoist h).ExtentOk
  shared : ∀ x y c, x ≠ y → (s.hoist x).inCompartment c = true → (s.hoist y).inCompartment c = true →
    apart (s.hoist x).run (s.hoist y).run
  awaited : ∀ h k z, (s.hoist h).config = some k → (s.hoist h).extent.head? = some z →
    ∃ x, x ≠ h ∧ s.holder k.compartment z = some x

/-- In each compartment a hoist of lower rank has its run above that of one of higher rank (R62). -/
abbrev State.RankOrder (s : State) : Prop :=
  ∀ x y c, (s.hoist x).inCompartment c = true → (s.hoist y).inCompartment c = true →
    (s.hoist x).rank < (s.hoist y).rank → above (s.hoist x).run (s.hoist y).run

/-- What holds of the committed tables and of the hoists that stand in them, between commands: a table that is not empty begins
at the collar with zones of 2,000 mm at least (R9), and is there under supervision (R19); a hoist heard from holds a REPORT (R31)
with its span in order (R29); and a hoist in a supervised state has been heard from and has a run (R62). -/
structure State.RunsHeld (s : State) : Prop where
  tables : ∀ c, (s.comp c).committed.count ≠ 0 → (s.comp c).committed.upper 1 = 0 ∧
    ∀ z, 1 ≤ z → z ≤ (s.comp c).committed.count →
      (s.comp c).committed.upper z + 2000 ≤ (s.comp c).committed.lower s.shaft.floor z
  present : ∀ c, (s.comp c).state = .supervised → (s.comp c).committed.count ≠ 0
  heard : ∀ h, (s.hoist h).freshness ≠ .none → (s.hoist h).latest ≠ none
  spans : ∀ h l, (s.hoist h).latest = some l → l.spanTop ≤ l.depth
  held : ∀ h, (s.hoist h).state.supervised = true → (s.hoist h).freshness ≠ .none ∧ (s.hoist h).run ≠ none

/-- What holds of one handover at its landing: its hoist is DOCKED or has tripped since (R123, R137), it holds the shuttle in
every phase but WAITING, its timer runs in the three phases it times, and from its grant it has a slot and a mass (R125, R127,
R133 to R135). -/
structure State.HandoverSound (s : State) (l : LandingId) (v : Handover) : Prop where
  hoist : (s.hoist v.hoist).state = .docked ∨ (s.hoist v.hoist).state = .tripped
  holds : v.phase ≠ .waiting ↔ (s.landing l).holder = .handover v.hoist
  timed : v.timer.isSome = true ↔ v.phase = .latching ∨ v.phase = .transferring ∨ v.phase = .unlatching
  chosen : v.phase ≠ .waiting → v.slot.isSome = true ∧ v.mass.isSome = true
  served : ∃ rec k, (s.landing l).record = some rec ∧ (s.hoist v.hoist).config = some k ∧
    rec.serves k.compartment = true

/-- What holds of the handovers and surveys between commands (R15, R122 to R127, R152, R153): a hoist has at most one handover,
and has one while DOCKED; a landing holds at most two, of different compartments; a shuttle's holder is there; a survey holds
the shuttle, runs its timer and finds no handover and SUPERVISED compartments; and nothing waits for a shuttle that is free. -/
structure State.HandoversSound (s : State) : Prop where
  one : (s.handovers.map Handover.hoist).Nodup
  docked : ∀ h, (s.hoist h).state = .docked → h ∈ s.handovers.map Handover.hoist
  each : ∀ l, ∀ v ∈ (s.landing l).queue, s.HandoverSound l v
  two : ∀ l, (s.landing l).queue.length ≤ 2
  sides : ∀ l, ∀ v ∈ (s.landing l).queue, ∀ w ∈ (s.landing l).queue, v.hoist ≠ w.hoist → ∀ c,
    (s.hoist v.hoist).inCompartment c = true → (s.hoist w.hoist).inCompartment c = false
  holder : ∀ l h, (s.landing l).holder = .handover h → h ∈ (s.landing l).queue.map Handover.hoist
  survey : ∀ l, ((s.landing l).survey = true ↔ (s.landing l).holder = .survey) ∧
    (s.landing l).surveyTimer.isSome = (s.landing l).survey
  surveyed : ∀ l, (s.landing l).survey = true → (s.landing l).queue = [] ∧
    ∃ rec, (s.landing l).record = some rec ∧ ∀ c, rec.serves c = true → (s.comp c).state = .supervised
  serves : ∀ l rec, (s.landing l).record = some rec → rec.servesA = true ∨ rec.servesB = true
  granted : ∀ l, (s.landing l).holder = .none → (s.landing l).shuttle = .idle →
    ∀ v ∈ (s.landing l).queue, v.phase ≠ .waiting

end Sys2Proof.Machine
end

