-- ==== Sys2Proof/Certificates/Slice0/Obligations.lean ====
section
/-! DEFINITION. The statements for the provers. Each is listed in OBLIGATIONS.json. -/

open Sys2Proof Sys2Proof.Machine

/-! ## The part as a machine -/

/-- A step takes the command at the front of the queue and runs `exec` on it with the rest of the queue. -/
def Obligations.StepTakesFrontCommand : Prop :=
  ∀ (c : Instr) (rest : List Instr) (s : State), s.pending = c :: rest → step s = exec c { s with pending := rest }

/-- With no command waiting a step is one millisecond of the time base, in which each port sends a frame and what falls due
joins the queue; in reset nothing happens. The model's choice (logs 3 and 16). -/
def Obligations.IdleStepIsOneMillisecond : Prop :=
  ∀ s : State, s.pending = [] →
    (s.resetInput = true → step s = .next s) ∧
    (s.resetInput = false → step s = .next
      { s with
        now := s.now + 1
        outbox := sendOldest .field (sendOldest .uplink s.outbox)
        pending := State.dueEvents { s with now := s.now + 1 } })

/-- Every command answers a next state and leaves the queue alone. One that is not a start keeps the strap address and the
reset input (R179), and the frames already given to the ports stay ahead of those it gives (R175). -/
def Obligations.EveryCommandCompletes : Prop :=
  ∀ (i : Instr) (s : State), ∃ t, exec i s = .next t ∧ t.pending = s.pending ∧
    (¬Starts i → t.resetInput = s.resetInput ∧ t.strapPins = s.strapPins ∧ t.strapAddress = s.strapAddress ∧
      ∃ new, t.outbox = s.outbox ++ new)

/-- POWER_ON, the two edges of the reset input and RESTART leave every item at its power-on value (R179, R184, R185). -/
def Obligations.StartsLeavePowerOnValues : Prop :=
  (∀ (x : Straps) (s : State), ∃ t, exec (.powerOn x) s = .next t ∧ t.AtPowerOn ∧ t.strapAddress = x ∧
    t.uplinkReceiving = false ∧ t.fieldReceiving = false ∧ t.outbox = []) ∧
  (∀ s : State, ∃ t, exec .resetInputAssert s = .next t ∧ t.AtPowerOn ∧ t.resetInput = true ∧
    t.uplinkReceiving = false ∧ t.fieldReceiving = false ∧ t.outbox = []) ∧
  (∀ (x : Straps) (s : State), s.resetInput = true → ∃ t, exec (.resetInputRelease x) s = .next t ∧ t.AtPowerOn ∧
    t.resetInput = false ∧ t.strapAddress = x ∧ t.uplinkReceiving = false ∧ t.fieldReceiving = false ∧
    t.outbox = []) ∧
  (∀ (o : OrderHead) (x : Straps) (s : State), s.Takes o → ∃ t, exec (.restart o x) s = .next t ∧ t.AtPowerOn ∧
    t.strapAddress = x ∧ t.resetInput = false ∧ t.uplinkReceiving = false ∧ t.fieldReceiving = s.fieldReceiving ∧
    t.outbox = s.outbox ++ [(.uplink, answerFrame s o codeRestart .accepted 0 [])])

/-- While the reset input is asserted nothing but POWER_ON and the input itself changes the part: no frame is received and
none is sent (R179). -/
def Obligations.HeldInReset : Prop :=
  ∀ (i : Instr) (s : State), s.resetInput = true → (∀ x, i ≠ .powerOn x) → i ≠ .resetInputAssert →
    (∀ x, i ≠ .resetInputRelease x) → exec i s = .next s

/-- The state right after power-on has every item at its power-on value (R185) and meets every invariant of the part. -/
def Obligations.ResetStateIsSound : Prop :=
  State.reset.AtPowerOn ∧ State.reset.Sound ∧ State.reset.Following ∧ State.reset.ClaimsSound ∧ State.reset.RankOrder ∧
    State.reset.HandoversSound ∧ State.reset.RunsHeld ∧ State.reset.pending = []

/-- Every step keeps what holds of the part between commands: the attention output, the record queue, each hoist's trip line,
timers, allowance and envelope in its state, and each hoist's state in step with its compartment (R33, R36, R37, R90, R106,
R112, R115, R166, R168, R171). -/
def Obligations.SoundKeptByEveryStep : Prop :=
  ∀ s t : State, s.Sound → s.Following → step s = .next t → t.Sound ∧ t.Following

/-- Every step keeps the claims: each run a block of zones and none outside supervision, no zone in the runs of two hoists, each
pending extent the zones next beyond its run in the direction of a MOVING hoist's move, with an awaited zone that another hoist
holds, and a move open exactly in MOVING and STOPPING; and it keeps the runs in rank order (R36, R61, R62, R64, R65, R72, R146).
That RESET_HOIST is refused where the order would fail is deduced from R62 (log 30). -/
def Obligations.ClaimsKeptByEveryStep : Prop :=
  ∀ s t : State, s.Following → s.ClaimsSound → step s = .next t →
    t.ClaimsSound ∧ (s.RankOrder → t.RankOrder)

/-- Every step keeps what the runs stand on: a committed table that is not empty begins at the collar with zones long enough, and
is there under supervision; and a hoist in a supervised state has been heard from and has a run that is not empty (R4, R9, R19,
R31, R37, R62). That a hoist whose held C lies beyond a lowered floor is admitted to the last zone is the model's choice (log
28). -/
def Obligations.RunsHeldByEveryStep : Prop :=
  ∀ s t : State, s.Following → s.ClaimsSound → s.HandoversSound → s.RunsHeld → step s = .next t → t.RunsHeld

/-- Every step keeps the handovers and surveys: a hoist has at most one handover, and one while it is DOCKED; a landing holds at
most two, of different compartments that it serves; a handover holds the shuttle in every phase but WAITING, with its timer
running where a phase is timed and its slot and mass chosen; a survey holds the shuttle with nothing in the queue and the
landing's compartments SUPERVISED; and nothing waits for a free shuttle (R122 to R127, R133 to R137, R152, R153). -/
def Obligations.HandoversKeptByEveryStep : Prop :=
  ∀ s t : State, s.Following → s.HandoversSound → step s = .next t → t.HandoversSound

/-! ## Frames and orders -/

/-- A discarded partial frame and a dropped frame set the indicator their rule names, and a frame of unknown kind goes out of
the other port unaltered (R173 to R175). A REPORT of a station that is no configured hoist's, and a SHUTTLE_REPORT of a station
that is no defined landing's, go up with their bytes unaltered, and nothing else changes (R177, R178). -/
def Obligations.FramesThatReachNoBlock : Prop :=
  ∀ s : State, s.resetInput = false →
    (∀ p, exec (.partialFrameDiscard p) s = .next ((s.receiving p).linked { s.links with length := true })) ∧
    (∀ p f, checkHolds f = false →
      exec (.frameDropped p f) s = .next ((s.received p).linked { s.links with check := true })) ∧
    (∀ p f, checkHolds f = true → knownKind f.kind = true → f.address = 0 ∨ rightDirection p f.kind = false →
      exec (.frameDropped p f) s = .next ((s.received p).linked { s.links with target := true })) ∧
    (∀ p f, checkHolds f = true → knownKind f.kind = true → f.address ≠ 0 → rightDirection p f.kind = true →
      lengthSuits f.kind f.payload = false →
      exec (.frameDropped p f) s = .next ((s.received p).linked { s.links with length := true })) ∧
    (∀ p f, checkHolds f = true → knownKind f.kind = false →
      exec (.framePassThrough p f) s = .next { s.received p with outbox := s.outbox ++ [(Port.other p, f)] }) ∧
    (∀ (a : Byte) (w : ReportWire), a ≠ 0 → s.driveAt a = none → exec (.report a w) s = .next
      { s with
        fieldReceiving := false
        outbox := s.outbox ++ [(.uplink, makeFrame a kindReport (reportBytes w))] }) ∧
    (∀ (a : Byte) (w : ShuttleWire), a ≠ 0 → w.survey.length ≤ 8 → s.shuttleAt a = none →
      exec (.shuttleReport a w) s = .next
        { s with
          fieldReceiving := false
          outbox := s.outbox ++ [(.uplink, makeFrame a kindShuttleReport (shuttleBytes w))] })

/-- An ORDER to the part that is not in the order table is answered TARGET or RANGE and sets ORDER. An ORDER to any other
address is dropped and sets ORDER (broadcast) or TARGET, whatever it orders, the broadcast ALL_STOP apart (R180). -/
def Obligations.OrdersNotCarriedOut : Prop :=
  (∀ (o : OrderHead) (code : Byte) (params : List Byte) (s : State), s.Takes o →
    (orderLengths code = none → exec (.unknownOrder o code params) s =
      .next ((s.linked { s.links with order := true }).answered o code .target 0 [])) ∧
    (∀ ns, orderLengths code = some ns → params.length ∉ ns → exec (.unknownOrder o code params) s =
      .next ((s.linked { s.links with order := true }).answered o code .range 0 []))) ∧
  (∀ (i : Instr) (o : OrderHead) (code : Byte) (s : State), s.resetInput = false → s.consumes o = false →
    (∃ params, i = .orderDropped o code params ∧ ¬(o.address = 63 ∧ code = 0x1A ∧ params = [])) ∨
      (tableOrder i = some (o, code) ∧ ¬(o.address = 63 ∧ i = .allStop o)) →
    exec i s = .next
      { s.linked (if o.address = 63 then { s.links with order := true } else { s.links with target := true }) with
        uplinkReceiving := false })

/-- An ORDER of the table that the part takes is answered once, with its tag and code, after the requests it makes of the
field port; refused, it changes nothing else and carries no data (R180, R181). -/
def Obligations.OneAnswerEach : Prop :=
  ∀ (i : Instr) (o : OrderHead) (code : Byte) (s : State), tableOrder i = some (o, code) → s.Takes o →
    ∃ t r d data new, exec i s = .next t ∧
      t.outbox = s.outbox ++ new ++ [(.uplink, answerFrame s o code r d data)] ∧ (∀ x ∈ new, x.1 = .field) ∧
      (r ≠ .accepted → t = s.answered o code r d data ∧ data = [])

/-! ## DEMAND -/

/-- A DEMAND to the drive station of a configured hoist goes down with the mode of R38 and the velocity of the clamp, whatever
mode it asks for; the clamp's velocity and reason are kept, the demand-age timer restarts if it runs, MISMATCH and CLAMP are
latched as R39 and R98 say, and nothing else changes. To any other address it is dropped and sets TARGET (R33, R38, R39, R97,
R98, R176). -/
def Obligations.DemandRouted : Prop :=
  ∀ (a m : Byte) (v : Half) (s : State), s.resetInput = false →
    (a = 0 ∨ s.driveAt a = none → exec (.demand a m v) s =
      .next { s.linked { s.links with target := true } with uplinkReceiving := false }) ∧
    (∀ h, a ≠ 0 → s.driveAt a = some h → ∃ t, exec (.demand a m v) s = .next t ∧
      let r := s.hoist h
      let velocity := r.forwardedVelocity v.toInt
      let reason := r.clampReason v.toInt
      let mode : Byte := if r.state ∈ [.engaging, .stopping, .docked, .ready, .moving] then 1 else 0
      let cut := reason = .envelope ∧ r.state = .moving
      t.hoist h =
        { r with
          lastVelocity := velocity
          lastReason := reason
          demandTimer := r.demandTimer.map fun _ => s.now + s.timers.staleLimit
          move := if cut then r.move.map fun x => { x with clamped := true } else r.move } ∧
      (∀ k, k ≠ h → t.hoist k = s.hoist k) ∧
      t.latched = (s.latched ||| (if reason = .mismatch then 0x200 else 0)) ||| (if cut then 0x400 else 0) ∧
      t =
        { s with
          hoists := t.hoists
          latched := t.latched
          attention := t.attention
          uplinkReceiving := false
          outbox := s.outbox ++ [(.field, makeFrame a kindDemand (mode :: int16 velocity))] })

/-- What a DEMAND is cut to, and the reason recorded: the table of R96, with the velocity of R38, R39, R94 and R95. -/
def Obligations.ForwardedVelocityAndReason : Prop :=
  ∀ (r : Hoist) (v : Int),
    let x := max (-20000) (min 20000 v)
    let free := r.state = .ready ∨ r.state = .moving
    let fits := ∃ l, r.latest = some l ∧ l.mode = .run ∧ l.brake = .lifted
    (free → fits →
      (0 < x → r.forwardedVelocity v = min x r.envDown) ∧ (x < 0 → r.forwardedVelocity v = -min (-x) r.envUp) ∧
      (x = 0 → r.forwardedVelocity v = 0)) ∧
    (¬(free ∧ fits) → r.forwardedVelocity v = 0) ∧
    (x = 0 → r.clampReason v = .none) ∧
    (x ≠ 0 → ¬free → r.clampReason v = .state) ∧
    (x ≠ 0 → free → ¬fits → r.clampReason v = .mismatch) ∧
    (x ≠ 0 → free → fits → r.forwardedVelocity v ≠ x → r.clampReason v = .envelope) ∧
    (x ≠ 0 → free → fits → r.forwardedVelocity v = x → x ≠ v → r.clampReason v = .saturated) ∧
    (x ≠ 0 → free → fits → r.forwardedVelocity v = x → x = v → r.clampReason v = .none)

/-- No command gives the field port a DEMAND that asks more than the hoist's envelope in its direction or than 20,000 mm/s,
and none with a velocity at all unless the hoist is READY or MOVING and its latest REPORT shows RUN and LIFTED (R39, R95). -/
def Obligations.NoDemandBeyondTheEnvelope : Prop :=
  ∀ (i : Instr) (s t : State) (f : Frame), exec i s = .next t → (Port.field, f) ∈ t.outbox → f.kind = kindDemand →
    (Port.field, f) ∈ s.outbox ∨
      ∃ (h : HoistId) (mode : Byte) (v : Int),
        f = makeFrame (t.hoist h).station kindDemand (mode :: int16 v) ∧ -20000 ≤ v ∧ v ≤ 20000 ∧
        (0 < v → v ≤ (t.hoist h).envDown) ∧ (v < 0 → -v ≤ (t.hoist h).envUp) ∧
        (v ≠ 0 → (t.hoist h).state = .ready ∨ (t.hoist h).state = .moving) ∧
        (v ≠ 0 → ∃ l, (t.hoist h).latest = some l ∧ l.mode = .run ∧ l.brake = .lifted)

/-! ## REPORT -/

/-- A REPORT of a configured hoist. The tracker takes it, with the envelopes copied into the reference first; then come the
release behind, the trip tests, the sequencer, the proof result, the proof status, the weighing of a READY hoist that stands
with its flag set, the record of a move that the REPORT ends, and the envelope. The REPORT goes up last, its 13 bytes as they
came and the annex as it then stands. What the tracker holds of the other hoists stays (R24 to R31, R92, R103, R150, R163,
R168, R169, R177). That the record follows the weighing is deduced (log 12). -/
def Obligations.ReportTaken : Prop :=
  ∀ (a : Byte) (w : ReportWire) (s : State) (h : HoistId) (k : HoistConfig), s.resetInput = false → a ≠ 0 →
    s.driveAt a = some h → (s.hoist h).config = some k →
    let x := s.tracked h k w
    let elapsed := (s.hoist h).lastReportTime.elim 0 fun e => s.now - e
    let tested := ({ s.withHoist h x with fieldReceiving := false }.releaseBehind h).actOnTests h elapsed
    let settled := ((tested.resolveState h).takeProofResult h).evaluateProof h
    let weighed :=
      if (settled.hoist h).weighPending = true ∧ w.speed = 0 ∧ (settled.hoist h).state = .ready then settled.weigh h
      else settled
    let logged : State :=
      match tested.moveEnded h, (weighed.hoist h).move with
      | some outcome, some m =>
        let made : MoveRecord :=
          { hoist := h
            outcome := outcome
            startDepth := m.startDepth
            endDepth := x.depth
            target := m.target
            travelled := x.travel
            carried := (weighed.hoist h).carried
            waited := m.waited
            clamped := m.clamped
            degraded := m.degraded
            duration := min 65535 ((s.now - m.startTime) / 100) }
        if s.logging = false then weighed
        else if weighed.records.length < 12 then { weighed with records := weighed.records ++ [made] }.latchedBit 4096
        else { weighed with overflow := true }.latchedBit 4096
      | _, _ => weighed
    ∃ t, exec (.report a w) s = .next
        { t with outbox := s.outbox ++ [(.uplink, makeFrame a kindReport (reportBytes w ++ t.annexBytes h k.compartment))] } ∧
      t = logged.withHoist h
        { logged.hoist h with envDown := t.envelope (t.hoist h) .down, envUp := t.envelope (t.hoist h) .up } ∧
      t =
        { s with
          hoists := t.hoists
          masses := t.masses
          latched := t.latched
          attention := t.attention
          records := t.records
          overflow := t.overflow
          fieldReceiving := false } ∧
      ((t.hoist h).config = x.config ∧ (t.hoist h).latest = x.latest ∧ (t.hoist h).freshness = x.freshness ∧
        (t.hoist h).reportTimer = x.reportTimer ∧ (t.hoist h).lastReportTime = x.lastReportTime ∧
        (t.hoist h).travel = x.travel ∧ (t.hoist h).refDown = x.refDown ∧ (t.hoist h).refUp = x.refUp) ∧
      (∀ y, y ≠ h → (s.hoist y).SameTrack (t.hoist y)) ∧ ((s.hoist h).weighPending = false → t.masses = s.masses)

/-- Release behind, where the extents fit the runs (R64): a MOVING or STOPPING hoist gives up, from the trailing end of its run,
the zones that lie the guard distance behind its span, up to the first that does not and never the last zone, and its envelope
is recomputed. A hoist that alone awaits one of them is granted it and walks on until its extent ends or a held zone stops it;
of the other hoists only the claims may change. A hoist in any other state releases nothing (R66, R69 to R71, R80). -/
def Obligations.ReleaseBehind : Prop :=
  ∀ (s : State) (h : HoistId) (k : HoistConfig), (s.hoist h).config = some k →
    let r := s.hoist h
    let t := s.releaseBehind h
    let table := (s.comp k.compartment).committed
    let span := table.overlap s.shaft.floor r.spanTop r.depth
    (r.state ≠ .moving → r.state ≠ .stopping → t = s) ∧
    ∀ (run : Run) (m : Move), r.state = .moving ∨ r.state = .stopping → r.run = some run → r.move = some m →
      (∀ y, (s.hoist y).ExtentOk) →
      let down := m.direction = .down
      let trail := fun (i : Nat) => if down then run.top + i else run.bottom - i
      let behind := fun (z : Nat) => inRun span z = false ∧
        if down then table.lower s.shaft.floor z + s.shaft.guard ≤ r.spanTop
        else r.depth + s.shaft.guard ≤ table.upper z
      ∃ n, n ≤ run.bottom - run.top ∧ (∀ i, i < n → behind (trail i)) ∧
        (n < run.bottom - run.top → ¬behind (trail n)) ∧ (n = 0 → t = s) ∧
        (n ≠ 0 → t.hoist h =
          { r with
            run := some (if down then ⟨run.top + n, run.bottom⟩ else ⟨run.top, run.bottom - n⟩)
            envDown := t.envelope (t.hoist h) .down
            envUp := t.envelope (t.hoist h) .up }) ∧
        (∀ y, y ≠ h → (s.hoist y).OnlyClaims (t.hoist y)) ∧ t = { s with hoists := t.hoists } ∧
        ∀ (i : Nat) (y : HoistId), i < n → y ≠ h → (s.hoist y).inCompartment k.compartment = true →
          (s.hoist y).extent.head? = some (trail i) →
          (∀ x, (s.hoist x).inCompartment k.compartment = true → x ≠ h → inRun (s.hoist x).run (trail i) = false) →
          (∀ x j, x ≠ y → j < n → (s.hoist x).inCompartment k.compartment = true →
            (s.hoist x).extent.head? ≠ some (trail j)) →
          ∃ j, 0 < j ∧ (t.hoist y).extent = (s.hoist y).extent.drop j ∧
            (t.hoist y).run = ((s.hoist y).extent.take j).foldl (fun run z => growRun run (s.hoist y).moveDirection z)
              (s.hoist y).run ∧
            ∀ z, (t.hoist y).extent.head? = some z → t.holder k.compartment z ≠ none

/-- The trip tests of a REPORT. OVERTRAVEL: a zone of the span, taken at the sill while a handover is open, lies outside the run.
OVERSPEED: the speed passes its limit. SEPARATION: a neighbour is nearer than the minimum. DRIVE_FAULT: a fault code with the
brake lifted. The reporting hoist trips once, for the first of these; every neighbour too near trips for SEPARATION; a hoist
that is TRIPPED already latches TRIP; and the trip scope stops the MOVING others once, or none. With no cause only the stop
allowance changes (R78, R79, R104 to R109, R111). -/
def Obligations.TestsOfAReport : Prop :=
  ∀ (s : State) (h : HoistId) (k : HoistConfig) (l : Latest) (elapsed : Nat), (s.hoist h).config = some k →
    (s.hoist h).latest = some l →
    let r := s.hoist h
    let t := s.actOnTests h elapsed
    let table := (s.comp k.compartment).committed
    let sill := (s.openHandover h).bind fun v => (s.landing v.1).record.map fun rec => rec.sill
    let zones := table.overlap s.shaft.floor (sill.elim l.spanTop fun x => x - k.height) (sill.getD l.depth)
    let stands := r.state.supervised = true ∧ r.state ≠ .tripped
    let outside := stands ∧ ∃ z ∈ runZones zones, inRun r.run z = false
    let lowered := r.stopAllowance.getD 0 - k.decel * elapsed / 1000
    let reference := if 0 < l.speed then r.refDown else r.refUp
    let limit := (if r.state = .stopping then max lowered reference else reference) + s.timers.overspeedMargin
    let fast := (r.state = .ready ∨ r.state = .moving ∨ r.state = .stopping) ∧ limit < l.speed.natAbs ∧ l.speed ≠ 0
    let near := fun (x : HoistId) => x ≠ h ∧ (s.hoist x).inCompartment k.compartment = true ∧
      r.state.supervised = true ∧ (s.hoist x).state.supervised = true ∧
      if k.rank < (s.hoist x).rank then ((s.hoist x).spanTop : Int) - l.depth < s.shaft.separation
      else (l.spanTop : Int) - (s.hoist x).depth < s.shaft.separation
    let faulty := r.state.supervised = true ∧ l.fault ≠ 0 ∧ l.brake = .lifted
    let held := fun (c : TripCause) => (t.hoist h).state = .tripped ∧ (t.hoist h).tripCause = some c
    let any := outside ∨ fast ∨ (∃ x, near x) ∨ faulty
    let trips := (any ∧ stands) ∨ ∃ x, near x ∧ (s.hoist x).state ≠ .tripped
    let stopped := trips ∧ (s.comp k.compartment).tripScope = .stopNeighbours
    (outside → held .overtravel) ∧ (¬outside → fast → held .overspeed) ∧
    (¬outside → ¬fast → (∃ x, near x) → stands → held .separation) ∧
    (¬outside → ¬fast → (∀ x, ¬near x) → faulty → stands → held .driveFault) ∧
    (any → t.latched.getLsbD 0 = true) ∧ (r.state = .tripped → t.hoist h = r) ∧
    (∀ x, near x → if (s.hoist x).state = .tripped then t.hoist x = s.hoist x
      else (t.hoist x).state = .tripped ∧ (t.hoist x).tripCause = some .separation) ∧
    (∀ x, x ≠ h → ¬near x →
      (stopped → (s.hoist x).inCompartment k.compartment = true → (s.hoist x).state = .moving →
        t.hoist x = (s.hoist x).stopped .stopped) ∧
      (¬stopped ∨ (s.hoist x).inCompartment k.compartment = false ∨ (s.hoist x).state ≠ .moving →
        t.hoist x = s.hoist x)) ∧
    (¬any → t = s.withHoist h
      { r with
        stopAllowance := if r.state = .stopping then some (min lowered l.speed.natAbs) else r.stopAllowance }) ∧
    s.OnlyHoists t

/-- What the sequencer makes of the REPORT it finds, by the hoist's state: an engagement completes; a move arrives or a stop ends,
the move is closed and its run trimmed to the guard distance about the hoist; a parking ends with the run trimmed to the span;
and nothing else happens. A move that ends here has its record when the REPORT has made its other changes, as deduced (log 12).
The proof result of a PROVING hoist passes it, trips it or leaves it, and in any other state it is ignored (R41, R43, R45, R47,
R50, R75, R76, R163, R165). -/
def Obligations.SequencerActsOnReport : Prop :=
  ∀ (s : State) (h : HoistId) (k : HoistConfig) (l : Latest), (s.hoist h).config = some k → (s.hoist h).latest = some l →
    let r := s.hoist h
    let t := s.resolveState h
    let guard := s.shaft.guard
    let done := l.mode = .run ∧ l.brake = .lifted ∧ l.torqueProven = true
    let keeps := fun (a b : Nat) => ∀ keep, (s.comp k.compartment).committed.overlap s.shaft.floor a b = some keep →
      ∀ z, inRun (t.hoist h).run z = true ↔ inRun r.run z = true ∧ keep.top ≤ z ∧ z ≤ keep.bottom
    let ended := fun (st : HoistState) => (t.hoist h).state = st ∧ (t.hoist h).moveOpen = false ∧
      (t.hoist h).extent = [] ∧ (t.hoist h).move = r.move.map (fun m => { m with isOpen := false }) ∧
      keeps (l.spanTop - guard) (min (l.depth + guard) s.shaft.floor)
    s.OnlyHoists t ∧ t.records = s.records ∧ t.latched = s.latched ∧ (∀ y, y ≠ h → (s.hoist y).OnlyClaims (t.hoist y)) ∧
    (r.state = .engaging → done →
      (t.hoist h).state = .ready ∧ (t.hoist h).engageTimer = none ∧ (t.hoist h).demandTimer = r.demandTimer) ∧
    (r.state = .engaging → ¬done → t = s) ∧
    (∀ m, r.move = some m → r.state = .moving →
      let here := l.speed = 0 ∧ ((l.depth : Int) - m.target).natAbs ≤ s.timers.arrivalTolerance
      (here → ended (if m.parkOnArrival = true then .parking else .ready)) ∧ (¬here → t = s) ∧
      (here → m.isOpen = true → s.moveEnded h = some .arrived) ∧ (¬here → s.moveEnded h = none)) ∧
    (∀ m, r.move = some m → r.state = .stopping →
      (l.speed = 0 → ended .ready) ∧ (l.speed ≠ 0 → t = s) ∧
      (l.speed = 0 → m.isOpen = true →
        s.moveEnded h = some (if m.stopReason = some .stale then .stale else .stopped)) ∧
      (l.speed ≠ 0 → s.moveEnded h = none)) ∧
    (r.state ≠ .moving → r.state ≠ .stopping → s.moveEnded h = none) ∧
    (r.state = .parking → l.brake = .set → r.extent = [] →
      (t.hoist h).state = .parked ∧ (t.hoist h).engageTimer = none ∧ keeps l.spanTop l.depth) ∧
    (r.state = .parking → l.brake = .lifted → t = s) ∧
    (r.state ∈ [.unconfigured, .releasedLocal, .parked, .proving, .ready, .docked, .tripped] → t = s) ∧
    (r.state ≠ .proving ∨ l.proofResult = .none → s.takeProofResult h = s) ∧
    (r.state = .proving → l.proofResult = .pass →
      s.takeProofResult h = s.withHoist h { r.atRest .parked with lastPass := some s.seconds }) ∧
    (r.state = .proving → l.proofResult = .fail → s.takeProofResult h = s.trip h .proofFail)

/-- A trip cause: a hoist in a supervised state other than TRIPPED trips, its move ends TRIPPED without a trim, its timers stop,
its line opens and TRIP is latched. Its run keeps every zone and takes, outward from each end, the free and not BARRED zones up
to those of the span, the sill taken for C while a handover is open. Under ISOLATE no other hoist changes, and under
STOP_NEIGHBOURS each MOVING hoist of the compartment stops. A TRIPPED hoist latches TRIP and keeps its cause; in the other
states nothing happens (R53, R77, R79, R90, R104, R106, R110 to R112). That an empty run, which R62 gives no supervised hoist,
gains no zone is the model's choice (log 31). -/
def Obligations.TripStopsTheHoist : Prop :=
  ∀ (s : State) (h : HoistId) (cause : TripCause),
    let r := s.hoist h
    let t := s.trip h cause
    (r.state = .tripped → t = s.latchedBit 1) ∧
    (r.state = .unconfigured ∨ r.state = .releasedLocal → t = s) ∧
    (r.state.supervised = true → r.state ≠ .tripped →
      (t.hoist h).state = .tripped ∧ (t.hoist h).tripCause = some cause ∧ (t.hoist h).tripLineOpen = true ∧
      (t.hoist h).demandTimer = none ∧ (t.hoist h).engageTimer = none ∧ (t.hoist h).proofTimer = none ∧
      (t.hoist h).stopAllowance = none ∧ (t.hoist h).envDown = 0 ∧ (t.hoist h).envUp = 0 ∧
      (t.hoist h).extent = [] ∧ (t.hoist h).moveOpen = false ∧ r.SameTrack (t.hoist h) ∧
      t.latched.getLsbD 0 = true ∧ s.OnlyHoists t ∧
      (∀ m, r.move = some m → m.isOpen = true → s.logging = true → s.records.length < 12 →
        t.records = s.records ++ [s.recordOf h m .tripped]) ∧
      (∀ (k : HoistConfig) (l : Latest), r.config = some k → r.latest = some l →
        let table := (s.comp k.compartment).committed
        let sill := (s.openHandover h).bind fun v => (s.landing v.1).record.map fun rec => rec.sill
        let zones := table.overlap s.shaft.floor (sill.elim l.spanTop fun x => x - k.height) (sill.getD l.depth)
        let free := fun (z : Nat) => (table.entry z).kind ≠ .barred ∧
          ∀ y, (s.hoist y).inCompartment k.compartment = true → inRun (s.hoist y).run z = false
        (r.run = none ∨ zones = none → (t.hoist h).run = r.run) ∧
        ∀ run x, r.run = some run → zones = some x →
          ∃ up down, (t.hoist h).run = some ⟨run.top - up, run.bottom + down⟩ ∧ up ≤ run.top - x.top ∧
            down ≤ x.bottom - run.bottom ∧ (∀ i, i < up → free (run.top - (i + 1))) ∧
            (∀ i, i < down → free (run.bottom + (i + 1))) ∧ (up < run.top - x.top → ¬free (run.top - (up + 1))) ∧
            (down < x.bottom - run.bottom → ¬free (run.bottom + (down + 1)))) ∧
      ∀ (k : HoistConfig) (x : HoistId), r.config = some k → x ≠ h →
        t.hoist x =
          if (s.comp k.compartment).tripScope = .stopNeighbours ∧ (s.hoist x).inCompartment k.compartment = true ∧
              (s.hoist x).state = .moving then (s.hoist x).stopped .stopped
          else s.hoist x)

/-! ## SHUTTLE_REPORT and handovers -/

/-- A SHUTTLE_REPORT of a defined landing sets the shuttle state; what it makes the part send down stands in the outbox before
the report itself, which goes up with its bytes unaltered (R122, R178). -/
def Obligations.ShuttleReportForwardedLast : Prop :=
  ∀ (a : Byte) (w : ShuttleWire) (s : State) (l : LandingId), s.resetInput = false → a ≠ 0 → w.survey.length ≤ 8 →
    s.shuttleAt a = some l → ∃ t new, exec (.shuttleReport a w) s = .next t ∧
      t.outbox = s.outbox ++ new ++ [(.uplink, makeFrame a kindShuttleReport (shuttleBytes w))] ∧
      (∀ x ∈ new, x.1 = .field) ∧
      (t.landing l).shuttle =
        (if w.state = 0 then .idle else if w.state = 1 then .latched else if w.state = 2 then .busy
          else if w.state = 3 then .done else .fault)

/-- LATCHED in LATCHING: the shuttle is asked to push or pull with the hoist's compartment as side and the slot, and the phase
becomes TRANSFERRING with the transfer limit; nothing else changes (R128). -/
def Obligations.LatchedBeginsTransfer : Prop :=
  ∀ (a : Byte) (w : ShuttleWire) (s : State) (l : LandingId) (rec : LandingRec) (v : Handover) (k : HoistConfig) (i : Nat),
    s.resetInput = false → a ≠ 0 → w.survey.length ≤ 8 → s.shuttleAt a = some l → (s.landing l).record = some rec →
    (s.landing l).holder = .handover v.hoist → ((s.landing l).queue.find? fun x => x.hoist == v.hoist) = some v →
    (s.hoist v.hoist).config = some k → v.slot = some i → v.phase = .latching → w.state = 1 →
    exec (.shuttleReport a w) s = .next
      { s.withLanding l
          { s.landing l with
            shuttle := .latched
            queue := (s.landing l).queue.map fun x =>
              if x.hoist = v.hoist then
                { x with phase := .transferring, timer := some (s.now + 1000 * s.timers.transferLimit) }
              else x } with
        fieldReceiving := false
        outbox := s.outbox ++
          [(.field, makeFrame (byte rec.station) kindShuttleReq
              [if v.kind = .deposit then 2 else 3, if k.compartment = .a then 0 else 1, byte i]),
            (.uplink, makeFrame a kindShuttleReport (shuttleBytes w))] }

/-- DONE in TRANSFERRING. With the handover's mass as tag, or no tag, the slot, the carried state and the mass record move
together (R129). With another tag the source is emptied and the handover's mass becomes UNCERTAIN with TAG latched; a tag that
counts as declared is PLACED at the destination and leaves its former place in doubt, and any other leaves the slot BLOCKED or
the hoist with an unknown load (R130). Either way the slot pointer follows, a COLLECT's hoist weighs, the outcome is DONE and
settled, and UNLATCH goes out. -/
def Obligations.DoneMovesTheMass : Prop :=
  ∀ (a : Byte) (w : ShuttleWire) (s : State) (l : LandingId) (rec : LandingRec) (v : Handover) (k : HoistConfig) (i : Nat)
      (m : MassId),
    s.resetInput = false → a ≠ 0 → w.survey.length ≤ 8 → s.shuttleAt a = some l → (s.landing l).record = some rec →
    (s.landing l).holder = .handover v.hoist → ((s.landing l).queue.find? fun x => x.hoist == v.hoist) = some v →
    (s.hoist v.hoist).config = some k → v.slot = some i → v.mass = some m → v.phase = .transferring → w.state = 3 →
    let pushed := v.kind = .deposit
    let pointer := (i + 1) % rec.slots.length
    let queue := (s.landing l).queue.map fun x =>
      if x.hoist = v.hoist then
        { x with
          outcome := some .done
          settled := true
          phase := .unlatching
          timer := some (s.now + 1000 * s.timers.latchLimit) }
      else x
    let sent := s.outbox ++
      [(.field, makeFrame (byte rec.station) kindShuttleReq [4, if k.compartment = .a then 0 else 1, byte i]),
        (.uplink, makeFrame a kindShuttleReport (shuttleBytes w))]
    (w.tag = 0 ∨ w.tag.toNat = m.val + 1 → exec (.shuttleReport a w) s = .next
      { ((s.withLanding l
            { s.landing l with
              shuttle := .done
              record := some
                { rec with
                  slots := rec.slots.set i (if pushed then .occupied m else .empty)
                  pointer := pointer }
              queue := queue }).withHoist v.hoist
            { s.hoist v.hoist with
              carried := if pushed then .none else .mass m
              weighPending := if pushed then false else true }).withMass m
            { s.mass m with status := .placed (if pushed then .slot l i else .hoist v.hoist) } with
        fieldReceiving := false
        outbox := sent }) ∧
    (i < rec.slots.length → w.tag ≠ 0 → w.tag.toNat ≠ m.val + 1 → ∀ tag : Option MassId,
      (∀ x, tag = some x ↔
        w.tag.toNat = x.val + 1 ∧ (s.mass x).status ≠ .absent ∧ ¬s.InHandover (some v.hoist) x) →
      let former := tag.bind fun x => (s.mass x).status.place
      ∃ t, exec (.shuttleReport a w) s = .next t ∧
        (∀ y j, t.slotAt y j =
          if y = l ∧ j = i then
            if pushed then tag.elim (.blocked none) fun x => .occupied x else .empty
          else if former = some (.slot y j) then tag.elim (s.slotAt y j) fun x => (s.slotAt y j).doubted x
          else s.slotAt y j) ∧
        (∀ y, t.hoist y =
          if y = v.hoist then
            { s.hoist y with
              carried := if pushed then .none else tag.elim .unknownLoad fun x => .mass x
              weighPending := if pushed then false else true }
          else if former = some (.hoist y) ∧ (tag.any fun x => (s.hoist y).carried == .mass x) = true then
            { s.hoist y with carried := .unknownLoad }
          else s.hoist y) ∧
        (∀ x, t.mass x =
          if x = m then { s.mass x with status := .uncertain none }
          else if tag = some x then
            { s.mass x with status := .placed (if pushed then .slot l i else .hoist v.hoist) }
          else s.mass x) ∧
        (∀ y, t.landing y =
          if y = l then
            { s.landing y with shuttle := .done, queue := queue, record := (t.landing y).record }
          else { s.landing y with record := (t.landing y).record }) ∧
        (∀ y x, (s.landing y).record = some x → ∃ slots, slots.length = x.slots.length ∧
          (t.landing y).record = some
            { x with
              slots := slots
              pointer := if y = l then pointer else x.pointer }) ∧
        (∀ y, (s.landing y).record = none → (t.landing y).record = none) ∧
        t =
          { s.latchedBit 8 with
            landings := t.landings
            hoists := t.hoists
            masses := t.masses
            fieldReceiving := false
            outbox := sent })

/-- IDLE in UNLATCHING with no other handover waiting: the handover leaves the queue, the shuttle has no holder, and a DOCKED
hoist returns to READY with its demand-age timer as it was, while a TRIPPED one stays TRIPPED; no mass, slot or other hoist
changes (R131). -/
def Obligations.IdleClosesTheHandover : Prop :=
  ∀ (a : Byte) (w : ShuttleWire) (s : State) (l : LandingId) (v : Handover),
    s.resetInput = false → a ≠ 0 → w.survey.length ≤ 8 → s.shuttleAt a = some l →
    (s.landing l).holder = .handover v.hoist → ((s.landing l).queue.find? fun x => x.hoist == v.hoist) = some v →
    v.phase = .unlatching → w.state = 0 →
    (∀ x ∈ (s.landing l).queue, x.hoist ≠ v.hoist → x.phase ≠ .waiting) →
    ∃ t, exec (.shuttleReport a w) s = .next t ∧
      ((s.hoist v.hoist).state = .docked → (t.hoist v.hoist).state = .ready) ∧
      ((s.hoist v.hoist).state ≠ .docked → (t.hoist v.hoist).state = (s.hoist v.hoist).state) ∧
      ((s.hoist v.hoist).state = .docked → (t.hoist v.hoist).demandTimer = (s.hoist v.hoist).demandTimer) ∧
      (s.hoist v.hoist).SameTrack (t.hoist v.hoist) ∧ (t.hoist v.hoist).run = (s.hoist v.hoist).run ∧
      (t.hoist v.hoist).move = (s.hoist v.hoist).move ∧
      t =
        { (s.withLanding l
              { s.landing l with
                shuttle := .idle
                holder := .none
                queue := (s.landing l).queue.filter fun x => x.hoist != v.hoist }).withHoist v.hoist
              (t.hoist v.hoist) with
          fieldReceiving := false
          outbox := s.outbox ++ [(.uplink, makeFrame a kindShuttleReport (shuttleBytes w))] }

/-- IDLE of a shuttle with no holder while two handovers wait for it. The one whose hoist has the greater shuttle precedence, and
on equal precedence the one of the higher-numbered hoist, is granted: its slot, named or found by the scan, is RESERVED, LATCH
goes out and the latch limit runs; the loser stays WAITING and is marked as having waited. With no slot to be found it closes
with HANDOVER latched, and the other is granted or closes in its turn (R121, R126, R127). -/
def Obligations.ArbiterGrantsByPrecedence : Prop :=
  ∀ (a : Byte) (b : ShuttleWire) (s : State) (l : LandingId) (rec : LandingRec) (v w : Handover) (k : HoistConfig),
    s.resetInput = false → a ≠ 0 → b.survey.length ≤ 8 → b.state = 0 → s.shuttleAt a = some l →
    (s.landing l).record = some rec → (s.landing l).holder = .none →
    (s.landing l).queue = [v, w] ∨ (s.landing l).queue = [w, v] → v.hoist ≠ w.hoist → v.phase = .waiting →
    w.phase = .waiting → (s.hoist v.hoist).config = some k →
    (s.hoist w.hoist).precedence < (s.hoist v.hoist).precedence ∨
      ((s.hoist v.hoist).precedence = (s.hoist w.hoist).precedence ∧ w.hoist < v.hoist) →
    rec.slots.length = 4 ∨ rec.slots.length = 8 → rec.pointer < rec.slots.length →
    (∀ j, v.slot = some j ∨ w.slot = some j → j < rec.slots.length) →
    let forward := (Port.uplink, makeFrame a kindShuttleReport (shuttleBytes b))
    (∀ i m, s.Chooses l rec v i m → exec (.shuttleReport a b) s = .next
      { (s.withLanding l
            { s.landing l with
              shuttle := .idle
              holder := .handover v.hoist
              record := some { rec with slots := rec.slots.set i (.reserved m) }
              queue := (s.landing l).queue.map fun x =>
                if x.hoist = v.hoist then
                  { v with
                    slot := some i
                    mass := some m
                    phase := .latching
                    timer := some (s.now + 1000 * s.timers.latchLimit) }
                else { w with waited := true } }).withHoist w.hoist
            { s.hoist w.hoist with move := (s.hoist w.hoist).move.map fun x => { x with waited := true } } with
        fieldReceiving := false
        outbox := s.outbox ++
          [(.field, makeFrame (byte rec.station) kindShuttleReq
              [1, if k.compartment = .a then 0 else 1, byte i]), forward] }) ∧
    ((∀ i m, ¬s.Chooses l rec v i m) → ∃ t, exec (.shuttleReport a b) s = .next t ∧
      (∀ x ∈ (t.landing l).queue, x.hoist = w.hoist ∧ x.phase = .latching ∧ x.slot.isSome = true) ∧
      ((s.hoist v.hoist).state = .docked → (t.hoist v.hoist).state = .ready) ∧ t.latched.getLsbD 2 = true ∧
      t.masses = s.masses ∧ ((t.landing l).queue = [] → (t.landing l).holder = .none ∧ t.outbox = s.outbox ++ [forward]) ∧
      ((t.landing l).queue ≠ [] → (t.landing l).holder = .handover w.hoist))

/-- The survey at a landing. DONE with too few codes, FAULT, or its timer's expiry changes no slot and no mass, latches VERIFY and
ends the survey; IDLE, LATCHED and BUSY leave it, and so does an expiry before its time or of a stopped timer, as chosen (logs 4
and 5) (R153). -/
def Obligations.SurveyFailureChangesNoRecord : Prop :=
  ∀ (s : State) (l : LandingId), s.resetInput = false →
    (∀ (a : Byte) (w : ShuttleWire) (rec : LandingRec), a ≠ 0 → w.survey.length ≤ 8 → s.shuttleAt a = some l →
      (s.landing l).record = some rec → (s.landing l).holder = .survey → (s.landing l).queue = [] →
      let st : ShuttleState := if w.state = 3 then .done else .fault
      (w.state = 3 ∧ w.survey.length < rec.slots.length ∨ 4 ≤ w.state.toNat → exec (.shuttleReport a w) s = .next
        { (s.withLanding l
              { s.landing l with shuttle := st, survey := false, surveyTimer := none, holder := .none }).latchedBit 16 with
          fieldReceiving := false
          outbox := s.outbox ++ [(.uplink, makeFrame a kindShuttleReport (shuttleBytes w))] }) ∧
      (w.state.toNat ≤ 2 → exec (.shuttleReport a w) s = .next
        { s.withLanding l
            { s.landing l with
              shuttle := if w.state = 0 then .idle else if w.state = 1 then .latched else .busy } with
          fieldReceiving := false
          outbox := s.outbox ++ [(.uplink, makeFrame a kindShuttleReport (shuttleBytes w))] })) ∧
    (∀ e, (s.landing l).surveyTimer = some e → e ≤ s.now → (∀ x ∈ (s.landing l).queue, x.phase ≠ .waiting) →
      exec (.surveyTimerExpiry l) s = .next
        ((s.withLanding l { s.landing l with survey := false, surveyTimer := none, holder := .none }).latchedBit 16)) ∧
    ((∀ e, (s.landing l).surveyTimer = some e → s.now < e) → exec (.surveyTimerExpiry l) s = .next s)

/-! ## Failures and timers -/

/-- A handover fails at its timer's expiry, at FAULT, and at IDLE while TRANSFERRING. In LATCHING the slot reverts and UNLATCH
goes out; in TRANSFERRING the mass is UNCERTAIN in a BLOCKED slot and the load unknown; in UNLATCHING the handover is STUCK;
HANDOVER is latched each time (R133 to R135). An expiry before its time or of a stopped timer changes nothing, as chosen (logs 4
and 5). -/
def Obligations.HandoverFailuresByPhase : Prop :=
  ∀ (h : HoistId) (s : State) (l : LandingId) (rec : LandingRec) (v : Handover) (k : HoistConfig) (i : Nat) (m : MassId),
    s.resetInput = false → s.openHandover h = some (l, v) → (s.landing l).record = some rec →
    (s.hoist h).config = some k → v.slot = some i → v.mass = some m →
    let landing := fun (shuttle : ShuttleState) (st : Option SlotState) (f : Handover → Handover) => s.withLanding l
      { s.landing l with
        shuttle := shuttle
        record := some { rec with slots := st.elim rec.slots fun x => rec.slots.set i x }
        queue := (s.landing l).queue.map fun x => if x.hoist = h then f x else x }
    let stuck := fun (x : Handover) => { x with phase := .stuck, timer := none }
    let failed : ShuttleState → State := fun shuttle =>
      if v.phase = .latching then
        { (landing shuttle (some (if v.kind = .deposit then .empty else .occupied m)) fun x =>
            { x with
              outcome := some .failed
              settled := true
              phase := .unlatching
              timer := some (s.now + 1000 * s.timers.latchLimit) }).latchedBit 4 with
          outbox := s.outbox ++
            [(.field, makeFrame (byte rec.station) kindShuttleReq
                [4, if k.compartment = .a then 0 else 1, byte i])] }
      else if v.phase = .transferring then
        (((landing shuttle (some (.blocked (some m))) stuck).withHoist h
            { s.hoist h with carried := .unknownLoad }).withMass m
            { s.mass m with status := .uncertain (some (.slot l i)) }).latchedBit 4
      else (landing shuttle none stuck).latchedBit 4
    (∀ e, v.phase ∈ [.latching, .transferring, .unlatching] → v.timer = some e → e ≤ s.now →
      exec (.handoverTimerExpiry h) s = .next (failed (s.landing l).shuttle)) ∧
    ((∀ e, v.timer = some e → s.now < e) → exec (.handoverTimerExpiry h) s = .next s) ∧
    ∀ (a : Byte) (w : ShuttleWire), a ≠ 0 → w.survey.length ≤ 8 → s.shuttleAt a = some l →
      (s.landing l).holder = .handover h →
      let reported := fun (t : State) => exec (.shuttleReport a w) s = .next
        { t with
          fieldReceiving := false
          outbox := t.outbox ++ [(.uplink, makeFrame a kindShuttleReport (shuttleBytes w))] }
      (4 ≤ w.state.toNat → v.phase ∈ [.latching, .transferring, .unlatching] → reported (failed .fault)) ∧
      (w.state = 0 → v.phase = .transferring → reported (failed .idle))

/-- The report-age timer's expiry does not restart it. FRESH becomes LAPSED, and the hoist trips for REPORT_LOSS, or REPORT_LOST is
latched in PARKED and TRIPPED, or nothing more happens outside supervision; NONE stays NONE. A timer that a REPORT has restarted,
or that is stopped, does not expire (R32, R52, R109). -/
def Obligations.ReportAgeExpiryByState : Prop :=
  ∀ (h : HoistId) (s : State), s.resetInput = false →
    let r := s.hoist h
    let lapsed : State := s.withHoist h { r with reportTimer := none, freshness := .lapsed }
    ((∀ e, r.reportTimer = some e → s.now < e) → exec (.reportAgeExpiry h) s = .next s) ∧
    ∀ e, r.reportTimer = some e → e ≤ s.now →
      (r.freshness ≠ .fresh → exec (.reportAgeExpiry h) s = .next (s.withHoist h { r with reportTimer := none })) ∧
      (r.freshness = .fresh → r.state = .parked ∨ r.state = .tripped → exec (.reportAgeExpiry h) s = .next
        (lapsed.latchedBit 2)) ∧
      (r.freshness = .fresh → r.state.supervised = false → exec (.reportAgeExpiry h) s = .next lapsed) ∧
      (r.freshness = .fresh → r.state.supervised = true → r.state ≠ .parked → r.state ≠ .tripped →
        exec (.reportAgeExpiry h) s = .next (lapsed.trip h .reportLoss) ∧
        ((lapsed.trip h .reportLoss).hoist h).state = .tripped ∧
        ((lapsed.trip h .reportLoss).hoist h).tripCause = some .reportLoss)

/-- The demand-age timer's expiry: STALE is latched and a DEMAND of velocity 0 goes down with the mode of the state the expiry
leaves. A MOVING hoist whose stale action is STOP enters STOPPING with reason STALE, one whose action is TRIP trips; a watched
hoist in another state keeps it, and its timer restarts (R34, R51, R99). A timer that a DEMAND has restarted, or that is stopped,
does not expire (R34); an expiry that a trip has overtaken latches TRIP again when the stale action is TRIP (R109). The mode of
the DEMAND at a stale trip (log 24) and what an overtaken expiry leaves undone (log 29) are deduced. -/
def Obligations.DemandAgeExpiryInjects : Prop :=
  ∀ (h : HoistId) (s : State) (k : HoistConfig), s.resetInput = false → (s.hoist h).config = some k →
    let r := s.hoist h
    let action := (s.comp k.compartment).staleAction
    let overtaken := r.state = .tripped ∧ r.overtaken = some .stale ∧ action = .trip
    let held := fun (x : Hoist) =>
      { x with
        demandTimer := some (s.now + s.timers.staleLimit)
        lastVelocity := 0
        lastReason := .none }
    let injected := fun (mode : Byte) => (Port.field, makeFrame (byte k.driveStation) kindDemand [mode, 0, 0])
    (overtaken → exec (.demandAgeExpiry h) s = .next ((s.withHoist h { r with overtaken := none }).latchedBit 1)) ∧
    (¬overtaken → (∀ e, r.demandTimer = some e → s.now < e) → exec (.demandAgeExpiry h) s = .next s) ∧
    ∀ e, r.demandTimer = some e → e ≤ s.now →
      (r.state.watched = true → r.state ≠ .moving → exec (.demandAgeExpiry h) s = .next
        { (s.withHoist h (held r)).latchedBit 256 with outbox := s.outbox ++ [injected 1] }) ∧
      (r.state = .moving → action = .stop → exec (.demandAgeExpiry h) s = .next
        { (s.withHoist h (held (r.stopped .stale))).latchedBit 256 with outbox := s.outbox ++ [injected 1] }) ∧
      (r.state = .moving → action = .trip → ∃ t, exec (.demandAgeExpiry h) s = .next t ∧
        (t.hoist h).state = .tripped ∧ (t.hoist h).tripCause = some .stale ∧ (t.hoist h).demandTimer = none ∧
        t.outbox = s.outbox ++ [injected 0] ∧ t.latched.getLsbD 0 = true ∧ t.latched.getLsbD 8 = true)

/-- The engage timer's expiry in ENGAGING returns the hoist to PARKED with ENGAGE latched, the proof timer's in PROVING returns it
to PARKED with PROOF latched and its proof record kept, and the engage timer's in PARKING trips it for PARK_FAIL (R41, R43,
R164). In any other state, before its time or with the timer stopped there is no expiry, as chosen (logs 4 and 5); but a park
timeout that a trip of the PARKING hoist for another cause has overtaken latches TRIP again (R109, log 29). -/
def Obligations.EngageParkAndProofTimeouts : Prop :=
  ∀ (h : HoistId) (s : State), s.resetInput = false →
    let r := s.hoist h
    let overtaken := r.state = .tripped ∧ r.overtaken = some .parkFail
    let reached := fun (timer : Option Nat) => ∃ e, timer = some e ∧ e ≤ s.now
    (r.state = .engaging → reached r.engageTimer →
      exec (.engageTimeout h) s = .next ((s.withHoist h (r.atRest .parked)).latchedBit 128)) ∧
    (¬(r.state = .engaging ∧ reached r.engageTimer) → exec (.engageTimeout h) s = .next s) ∧
    (r.state = .proving → reached r.proofTimer →
      exec (.proofTimerExpiry h) s = .next ((s.withHoist h (r.atRest .parked)).latchedBit 64)) ∧
    (¬(r.state = .proving ∧ reached r.proofTimer) → exec (.proofTimerExpiry h) s = .next s) ∧
    (r.state = .parking → reached r.engageTimer → ∃ t, exec (.parkTimeout h) s = .next t ∧
      (t.hoist h).state = .tripped ∧ (t.hoist h).tripCause = some .parkFail ∧ (t.hoist h).engageTimer = none ∧
      (t.hoist h).tripLineOpen = true ∧ r.SameTrack (t.hoist h) ∧ t.latched.getLsbD 0 = true ∧ s.OnlyHoists t) ∧
    (overtaken → exec (.parkTimeout h) s = .next ((s.withHoist h { r with overtaken := none }).latchedBit 1)) ∧
    (¬overtaken → ¬(r.state = .parking ∧ reached r.engageTimer) → exec (.parkTimeout h) s = .next s) ∧
    (∀ cause, r.state = .parking → reached r.engageTimer → cause ≠ .parkFail →
      ((s.trip h cause).hoist h).state = .tripped ∧ ((s.trip h cause).hoist h).overtaken = some .parkFail) ∧
    (∀ cause, r.state = .moving → reached r.demandTimer → cause ≠ .stale →
      ((s.trip h cause).hoist h).state = .tripped ∧ ((s.trip h cause).hoist h).overtaken = some .stale)

/-- A passing second: the seconds count advances, and every hoist's proof status is worked out afresh from its last pass and its
effective interval. A hoist whose status changed has its envelope recomputed, and an open move that finds it DUE or LAPSED is
marked DEGRADED and latches PROOF (R157, R159, R160). The seconds beyond 2 to the 32 are free (log 9), and the time base is
brought to the second's time (logs 4 and 8). -/
def Obligations.SecondTickEvaluatesEveryProof : Prop :=
  ∀ s : State, s.resetInput = false → ∃ t, exec .secondTick s = .next t ∧
    (s.seconds + 1 < 2 ^ 32 → t.seconds = s.seconds + 1) ∧
    (∀ h,
      let r := s.hoist h
      let st := (t.hoist h).proofStatus
      let warned := ∃ l, r.latest = some l ∧ l.envWarning = true
      (r.lastPass = none → st = .lapsed) ∧
      (∀ p, r.lastPass = some p →
        (∀ i, (warned → i = s.proofInterval / 2) → (¬warned → i = s.proofInterval) →
          (t.seconds - p < i → st = .current) ∧
          (i ≤ t.seconds - p → t.seconds - p < 2 * i → st = .due) ∧
          (i ≤ t.seconds - p → 2 * i ≤ t.seconds - p → st = .lapsed))) ∧
      t.hoist h =
        if st = r.proofStatus then r
        else
          { r with
            proofStatus := st
            envDown := t.envelope (t.hoist h) .down
            envUp := t.envelope (t.hoist h) .up
            move :=
              if st = .current then r.move else r.move.map fun m => { m with degraded := m.degraded || m.isOpen } }) ∧
    ((∃ h, (t.hoist h).proofStatus ∉ [(s.hoist h).proofStatus, .current] ∧ (s.hoist h).moveOpen = true) →
      t.latched = s.latched ||| 64) ∧
    ((∀ h, (t.hoist h).proofStatus ∈ [(s.hoist h).proofStatus, .current] ∨ (s.hoist h).moveOpen = false) →
      t.latched = s.latched) ∧
    t.records = s.records ∧ t.overflow = s.overflow ∧
    State.OnlyHoists
      { s with seconds := t.seconds, now := max s.now s.nextSecond, nextSecond := s.nextSecond + 1000 } t

/-! ## Orders of the shaft map -/

/-- SHAFT_WRITE outside supervision with every field in its range writes the four settings, and each committed table with a
zone shorter than 2,000 mm under the new floor is emptied, its shadow kept; a SUPERVISED compartment refuses it (R3, R4). -/
def Obligations.ShaftWriteSetsAll : Prop :=
  ∀ (o : OrderHead) (floor tally : Word) (guard separation : Half) (s : State), s.Takes o →
    let x := floor.toNat
    let short := fun (t : ZoneTable) => ∃ z, 1 ≤ z ∧ z ≤ t.count ∧ t.lower x z < t.upper z + 2000
    let out := fun (r : Result) => s.answered o 0x01 r 0 []
    (s.compA.state = .supervised ∨ s.compB.state = .supervised →
      exec (.shaftWrite o floor tally guard separation) s = .next (out .state)) ∧
    (s.compA.state ≠ .supervised → s.compB.state ≠ .supervised →
      (¬(10000 ≤ x ∧ x ≤ 1600000 ∧ guard.toNat ≤ 5000 ∧ 1000 ≤ separation.toNat ∧ separation.toNat ≤ 20000 ∧
          tally.toNat ≤ x) ∨ (∃ l rec, (s.landing l).record = some rec ∧ x ≤ rec.sill) →
        exec (.shaftWrite o floor tally guard separation) s = .next (out .range)) ∧
      (10000 ≤ x → x ≤ 1600000 → guard.toNat ≤ 5000 → 1000 ≤ separation.toNat → separation.toNat ≤ 20000 →
        tally.toNat ≤ x → (∀ l rec, (s.landing l).record = some rec → rec.sill < x) →
        ∃ t, exec (.shaftWrite o floor tally guard separation) s = .next (State.answered t o 0x01 .accepted 0 []) ∧
          t =
            { s with
              shaft := ⟨x, tally.toNat, guard.toNat, separation.toNat⟩
              compA := { s.compA with committed := { s.compA.committed with count := t.compA.committed.count } }
              compB := { s.compB with committed := { s.compB.committed with count := t.compB.committed.count } } } ∧
          ∀ c, (short (s.comp c).committed → (t.comp c).committed.count = 0) ∧
            (¬short (s.comp c).committed → (t.comp c).committed.count = (s.comp c).committed.count)))

/-- The entry form of ZONE_WRITE overwrites one shadow entry, its ceiling saturated, and changes nothing else (R6); the count form
sets the shadow's count up to 48 and changes no entry (R7). Other values are refused with TARGET and RANGE. -/
def Obligations.ZoneWriteSetsShadow : Prop :=
  (∀ (o : OrderHead) (c i : Byte) (upper : Word) (ceiling : Half) (kind landing : Byte) (s : State), s.Takes o →
      let form := Instr.zoneWriteEntry o c i upper ceiling kind landing
      let known := kind = 0 ∨ (kind = 1 ∧ 1 ≤ landing.toNat ∧ landing.toNat ≤ 16) ∨ kind = 2
      (2 ≤ c.toNat → exec form s = .next (s.answered o 0x02 .target 0 [])) ∧
      (c.toNat < 2 → i.toNat = 0 ∨ 48 < i.toNat ∨ 1600000 < upper.toNat ∨ ¬known →
        exec form s = .next (s.answered o 0x02 .range 0 [])) ∧
      ∀ (d : Compartment) (k : ZoneKind), d.code = c.toNat → 1 ≤ i.toNat → i.toNat ≤ 48 → upper.toNat ≤ 1600000 →
        k.code = kind.toNat → (kind = 1 → k.landingCode = landing.toNat) →
        ∃ t, exec form s = .next (State.answered t o 0x02 .accepted 0 []) ∧
          (∀ z, 1 ≤ z → z ≤ 48 → (t.comp d).shadow.entry z =
            if z = i.toNat then ⟨upper.toNat, min 20000 ceiling.toNat, k⟩ else (s.comp d).shadow.entry z) ∧
          (t.comp d).shadow.count = (s.comp d).shadow.count ∧ (∀ e, e ≠ d → t.comp e = s.comp e) ∧
          t.comp d = { s.comp d with shadow := (t.comp d).shadow } ∧ t = { s with compA := t.compA, compB := t.compB }) ∧
  ∀ (o : OrderHead) (c n : Byte) (s : State), s.Takes o →
    (2 ≤ c.toNat → exec (.zoneWriteCount o c n) s = .next (s.answered o 0x02 .target 0 [])) ∧
    (c.toNat < 2 → 48 < n.toNat → exec (.zoneWriteCount o c n) s = .next (s.answered o 0x02 .range 0 [])) ∧
    (c = 0 → n.toNat ≤ 48 → exec (.zoneWriteCount o c n) s = .next (State.answered
      { s with compA := { s.compA with shadow := { s.compA.shadow with count := n.toNat } } } o 0x02 .accepted 0 [])) ∧
    (c = 1 → n.toNat ≤ 48 → exec (.zoneWriteCount o c n) s = .next (State.answered
      { s with compB := { s.compB with shadow := { s.compB.shadow with count := n.toNat } } } o 0x02 .accepted 0 []))

/-- ZONE_COMMIT of a valid shadow: the committed table takes the shadow's count and its entries within it, entries beyond keep
what they held, and the shadow stays. Outside supervision nothing else changes; under it, with every hoist PARKED and no
conflict, each hoist's run becomes the zones its span overlaps. A shadow is checked for its count, its boundaries, its lengths,
its landing zones and its landings' coverage in that order, and the first that fails gives the detail of TABLE; the uppermost
zone with a conflict gives that of CONFLICT (R8 to R13). At which zone a conflict of rank order is found is deduced (log 14), and
that a C held beyond a lowered floor is taken in the last zone is the model's choice (log 28). -/
def Obligations.ZoneCommitTakesShadow : Prop :=
  ∀ (o : OrderHead) (b : Byte) (c : Compartment) (s : State), s.Takes o → b.toNat = c.code →
    let x := s.comp c
    let table := x.shadow
    let floor := s.shaft.floor
    let parked := ∀ h, (s.hoist h).inCompartment c = true → (s.hoist h).state = .parked
    let inTable := fun (z : Nat) => 1 ≤ z ∧ z ≤ table.count
    let first := fun (bad : Nat → Prop) (z : Nat) => inTable z ∧ bad z ∧ ∀ y, 1 ≤ y → y < z → ¬bad y
    let sound := fun (bad : Nat → Prop) => ∀ z, inTable z → ¬bad z
    let counted := 1 ≤ table.count ∧ table.count ≤ 48
    let disordered := fun (z : Nat) => if z = 1 then table.upper 1 ≠ 0 else table.upper z ≤ table.upper (z - 1)
    let short := fun (z : Nat) => table.lower floor z < table.upper z + 2000
    let misplaced := fun (z : Nat) => ∃ l, (table.entry z).kind = .landing l ∧
      ¬∃ rec, (s.landing l).record = some rec ∧ rec.serves c = true ∧ table.upper z ≤ rec.sill ∧
        rec.sill < table.lower floor z ∧ ∀ y, 1 ≤ y → y < z → (table.entry y).kind ≠ .landing l
    let uncovered := fun (l : LandingId) => (∃ rec, (s.landing l).record = some rec ∧ rec.serves c = true) ∧
      ∀ z, inTable z → (table.entry z).kind ≠ .landing l
    let zones := fun (h : HoistId) => s.spanZones table (s.hoist h)
    let clash := fun (z : Nat) => ∃ h, (s.hoist h).inCompartment c = true ∧ inRun (zones h) z = true ∧
      ((table.entry z).kind = .barred ∨ ∃ y, y ≠ h ∧ (s.hoist y).inCompartment c = true ∧
        (inRun (zones y) z = true ∨
          ((s.hoist h).rank < (s.hoist y).rank ∧ ∃ run, zones y = some run ∧ run.top ≤ z)))
    let refused := fun (r : Result) (detail : Nat) => exec (.zoneCommit o b) s = .next (s.answered o 0x03 r detail [])
    (x.state = .supervised → ¬parked → refused .state 0) ∧
    ((x.state = .supervised → parked) →
      (¬counted → refused .table 0) ∧
      (counted → (∀ z, first disordered z → refused .table z) ∧
        (sound disordered → (∀ z, first short z → refused .table z) ∧
          (sound short → (∀ z, first misplaced z → refused .table z) ∧
            (sound misplaced →
              (∀ l, uncovered l → (∀ y, y < l → ¬uncovered y) → refused .table (128 + (l.val + 1))) ∧
              ((∀ l, ¬uncovered l) →
                (∀ z, x.state = .supervised → first clash z → refused .conflict z) ∧
                ((x.state = .supervised → sound clash) →
                  ∃ t, exec (.zoneCommit o b) s = .next (State.answered t o 0x03 .accepted 0 []) ∧
                    (t.comp c).committed.count = table.count ∧
                    (∀ z, 1 ≤ z → z ≤ 48 → (t.comp c).committed.entry z =
                      if z ≤ table.count then table.entry z else x.committed.entry z) ∧
                    t.comp c = { x with committed := (t.comp c).committed } ∧ (∀ d, d ≠ c → t.comp d = s.comp d) ∧
                    (x.state ≠ .supervised → t.hoists = s.hoists) ∧
                    (x.state = .supervised → ∀ h,
                      ((s.hoist h).inCompartment c = false → t.hoist h = s.hoist h) ∧
                      ((s.hoist h).inCompartment c = true → t.hoist h =
                        { s.hoist h with
                          run := zones h
                          envDown := 0
                          envUp := 0 })) ∧
                    t = { s with compA := t.compA, compB := t.compB, hoists := t.hoists })))))))

/-- LANDING_WRITE outside supervision, with every field in its range, no mass at the landing and no station address shared:
the landing is defined with its slots EMPTY and its pointer 0, and each compartment it served or serves whose committed table
then fails the landing checks has that table emptied (R16, R17). The removal of a landing with no mass at it, where the
compartments it serves are not SUPERVISED: the landing is undefined and loses all it held, and each committed table that names it
is emptied; one already undefined changes nothing (R18). -/
def Obligations.LandingWriteAndRemove : Prop :=
  ∀ (o : OrderHead) (b : Byte) (sill : Word) (n mode served station : Byte) (l : LandingId) (s : State), s.Takes o →
    b.toNat = l.val + 1 →
    (∀ m : OrderMode, 1 ≤ sill.toNat → sill.toNat + 1 ≤ s.shaft.floor → n = 4 ∨ n = 8 → mode.toNat = m.code →
      served.getLsbD 0 = true ∨ served.getLsbD 1 = true → 1 ≤ station.toNat → station.toNat ≤ 62 →
      s.compA.state ≠ .supervised → s.compB.state ≠ .supervised →
      (∀ rec, (s.landing l).record = some rec → ∀ x ∈ rec.slots, x.names = none) →
      station.toNat ≠ s.strapAddress.toNat →
      (∀ k rec, k ≠ l → (s.landing k).record = some rec → rec.station ≠ station.toNat) →
      (∀ h k, (s.hoist h).config = some k → k.driveStation ≠ station.toNat) →
      let made : LandingRec :=
        ⟨sill.toNat, m, served.getLsbD 0, served.getLsbD 1, station.toNat, List.replicate n.toNat .empty, 0⟩
      let written := s.withLanding l { s.landing l with record := some made, shuttle := .unknown, holder := .none }
      ∃ t, exec (.landingWrite o b sill n mode served station) s = .next (State.answered t o 0x05 .accepted 0 []) ∧
        t =
          { written with
            compA := { s.compA with committed := { s.compA.committed with count := t.compA.committed.count } }
            compB := { s.compB with committed := { s.compB.committed with count := t.compB.committed.count } } } ∧
        ∀ c,
          let concerned := made.serves c = true ∨ ∃ x, (s.landing l).record = some x ∧ x.serves c = true
          (concerned → written.landingFault c (s.comp c).committed ≠ none → (t.comp c).committed.count = 0) ∧
          (¬concerned ∨ written.landingFault c (s.comp c).committed = none →
            (t.comp c).committed.count = (s.comp c).committed.count)) ∧
    ((s.landing l).record = none →
      exec (.landingRemove o b sill mode served station) s = .next (s.answered o 0x05 .accepted 0 [])) ∧
    ∀ rec, (s.landing l).record = some rec →
      (rec.servesA = true → s.compA.state ≠ .supervised) → (rec.servesB = true → s.compB.state ≠ .supervised) →
      (∀ x ∈ rec.slots, x.names = none) →
      let named := fun (t : ZoneTable) => ∃ z, 1 ≤ z ∧ z ≤ t.count ∧ (t.entry z).kind = .landing l
      ∃ t, exec (.landingRemove o b sill mode served station) s = .next (State.answered t o 0x05 .accepted 0 []) ∧
        t =
          { s.withLanding l ⟨none, [], .none, .unknown, false, none⟩ with
            compA := { s.compA with committed := { s.compA.committed with count := t.compA.committed.count } }
            compB := { s.compB with committed := { s.compB.committed with count := t.compB.committed.count } } } ∧
        ∀ c, (named (s.comp c).committed → (t.comp c).committed.count = 0) ∧
          (¬named (s.comp c).committed → (t.comp c).committed.count = (s.comp c).committed.count)

/-! ## Orders of hoists and groups -/

/-- HOIST_CONFIG outside supervision with every field in its range, no rank taken and no station address shared: the
configuration is written, the profile ceiling becomes the default one saturated, the hoist takes the state of its compartment,
and a new drive station discards the latest REPORT and starts the report-age timer; all else of the hoist stays (R22, R23). -/
def Obligations.HoistConfigWrites : Prop :=
  ∀ (o : OrderHead) (b : Byte) (p : HoistParams) (h : HoistId) (c : Compartment) (s : State), s.Takes o →
    b.toNat = h.val + 1 → p.compartment.toNat = c.code → 1 ≤ p.rank.toNat → p.rank.toNat ≤ 3 →
    1 ≤ p.driveStation.toNat → p.driveStation.toNat ≤ 62 → 1000 ≤ p.tare.toNat → p.tare.toNat ≤ 30000 →
    2000 ≤ p.height.toNat → p.height.toNat ≤ 20000 → p.sheaveOffset.toNat ≤ 200 → p.ropeCoeff.toNat ≤ 63 →
    p.stretchCap.toNat ≤ 8000 → 300 ≤ p.decel.toNat → p.decel.toNat ≤ 3000 → p.precedence.toNat ≤ 7 →
    (s.comp c).state ≠ .supervised → (∀ k, (s.hoist h).config = some k → (s.comp k.compartment).state ≠ .supervised) →
    (∀ x k, x ≠ h → (s.hoist x).config = some k → k.compartment = c → k.rank ≠ p.rank.toNat) →
    p.driveStation.toNat ≠ s.strapAddress.toNat →
    (∀ x k, x ≠ h → (s.hoist x).config = some k → k.driveStation ≠ p.driveStation.toNat) →
    (∀ l rec, (s.landing l).record = some rec → rec.station ≠ p.driveStation.toNat) →
    let r := s.hoist h
    let kept := ∃ k, r.config = some k ∧ k.driveStation = p.driveStation.toNat
    ∃ r', exec (.hoistConfig o b p) s = .next (State.answered (s.withHoist h r') o 0x10 .accepted 0 []) ∧
      r' =
        { r.atRest (if (s.comp c).state = .released then .releasedLocal else .unconfigured) with
          config := some
            { compartment := c
              rank := p.rank.toNat
              driveStation := p.driveStation.toNat
              tare := p.tare.toNat
              height := p.height.toNat
              sheaveOffset := p.sheaveOffset.toNat
              ropeCoeff := p.ropeCoeff.toNat
              stretchCap := p.stretchCap.toNat
              decel := p.decel.toNat
              defaultCeiling := min 20000 p.defaultCeiling.toNat
              precedence := p.precedence.toNat }
          profileCeiling := min 20000 p.defaultCeiling.toNat
          tripLineOpen := r'.tripLineOpen
          latest := r'.latest
          freshness := r'.freshness
          reportTimer := r'.reportTimer } ∧
      (r'.tripLineOpen = true ↔ (s.comp c).state = .unconfigured) ∧
      (kept → r'.latest = r.latest ∧ r'.freshness = r.freshness ∧ r'.reportTimer = r.reportTimer) ∧
      (¬kept → r'.latest = none ∧ r'.freshness = .none ∧ r'.reportTimer = some (s.now + s.timers.reportLimit))

/-- ENGAGE of a PARKED, FRESH hoist that is not LAPSED, and PARK of a READY or ENGAGING one, start the engage timer; the
demand-age timer starts with ENGAGING and stops with PARKING. Other states are refused with STATE, a lapsed proof with PROOF,
an unconfigured hoist with TARGET (R40, R42). -/
def Obligations.EngageAndPark : Prop :=
  ∀ (o : OrderHead) (b : Byte) (s : State), s.Takes o →
    ((∀ h : HoistId, b.toNat = h.val + 1 → (s.hoist h).config = none) →
      exec (.engage o b) s = .next (s.answered o 0x12 .target 0 []) ∧
      exec (.park o b) s = .next (s.answered o 0x13 .target 0 [])) ∧
    ∀ (h : HoistId) (k : HoistConfig), b.toNat = h.val + 1 → (s.hoist h).config = some k →
      let r := s.hoist h
      let timed : Hoist := { r.atRest .parked with engageTimer := some (s.now + 1000 * s.timers.engageLimit) }
      (r.state = .parked → r.freshness = .fresh → r.proofStatus ≠ .lapsed →
        exec (.engage o b) s = .next (State.answered
          (s.withHoist h { timed with state := .engaging, demandTimer := some (s.now + s.timers.staleLimit) })
          o 0x12 .accepted 0 [])) ∧
      (r.state ≠ .parked ∨ r.freshness ≠ .fresh → exec (.engage o b) s = .next (s.answered o 0x12 .state 0 [])) ∧
      (r.state = .parked → r.freshness = .fresh → r.proofStatus = .lapsed →
        exec (.engage o b) s = .next (s.answered o 0x12 .proof 0 [])) ∧
      (r.state = .ready ∨ r.state = .engaging → exec (.park o b) s = .next (State.answered
        (s.withHoist h { timed with state := .parking }) o 0x13 .accepted 0 [])) ∧
      (r.state ≠ .ready → r.state ≠ .engaging → exec (.park o b) s = .next (s.answered o 0x13 .state 0 []))

/-- MOVE accepted for a READY hoist opens a move, and the claim is formed towards the target and walked over the free zones;
WAITED is set when a held zone ends the walk, DEGRADED and PROOF when the proof is DUE, and no other hoist changes (R44, R45,
R64 to R67, R160). -/
def Obligations.MoveOpensAMove : Prop :=
  ∀ (o : OrderHead) (b : Byte) (target : Word) (p : Byte) (s : State) (h : HoistId) (k : HoistConfig), s.Takes o →
    b.toNat = h.val + 1 → (s.hoist h).config = some k →
    let r := s.hoist h
    let x := target.toNat
    let table := (s.comp k.compartment).committed
    let d : Direction := if r.depth < x then .down else .up
    let walked := walkZones (s.isFree k.compartment) d (s.extentFor table r.run k.height x d) r.run
    r.state = .ready → r.proofStatus ≠ .lapsed → k.height ≤ x → x ≤ s.shaft.floor →
    (∀ z ∈ runZones (table.overlap s.shaft.floor (x - k.height) x), (table.entry z).kind ≠ .barred) →
    s.timers.arrivalTolerance < ((x : Int) - r.depth).natAbs → s.moveConflict h x = none →
    ∃ t, exec (.move o b target p) s = .next (State.answered t o 0x20 .accepted 0 []) ∧
      t.hoist h =
        { r with
          state := .moving
          travel := 0
          tripLineOpen := false
          engageTimer := none
          proofTimer := none
          stopAllowance := none
          run := walked.1
          extent := walked.2
          envDown := t.envelope (t.hoist h) .down
          envUp := t.envelope (t.hoist h) .up
          move := some
            { target := x
              direction := d
              parkOnArrival := p != 0
              startDepth := r.depth
              startTime := s.now
              waited := walked.2 != []
              clamped := false
              degraded := r.proofStatus == .due
              stopReason := none
              isOpen := true } } ∧
      t = { (if r.proofStatus = .due then s.latchedBit 64 else s) with hoists := s.hoists.set h.val (t.hoist h) }

/-- MOVE accepted for a MOVING hoist keeps its move open with the new target and flag. The zones of its run beyond the keep zone,
which contains the stopping point or the new far depth, whichever lies farther, are released, those of its span apart; the
extent is formed afresh from that run towards the far zone, short of a BARRED one, and walked over the free zones. Its
direction, its start, its other flags and its travel are kept, no hoist changes its state, and of the other hoists only the
claims may change (R44, R46, R64, R66, R73, R74). That the run keeps the zone at its trailing end, where the keep zone and the
span lie behind the whole run, is the model's choice (log 34). -/
def Obligations.MoveRetargetsAnOpenMove : Prop :=
  ∀ (o : OrderHead) (b : Byte) (target : Word) (p : Byte) (s : State) (h : HoistId) (k : HoistConfig) (m : Move)
      (run span : Run) (keepZone farZone : Nat),
    s.Takes o → b.toNat = h.val + 1 → (s.hoist h).config = some k → (s.hoist h).move = some m →
    (s.hoist h).run = some run →
    let r := s.hoist h
    let x := target.toNat
    let table := (s.comp k.compartment).committed
    let floor := s.shaft.floor
    let down := m.direction = .down
    let distance := r.speed.natAbs ^ 2 / (2 * k.decel)
    let farDepth := if down then min (x + s.shaft.guard) floor else x - k.height - s.shaft.guard
    let keepDepth :=
      if down then max (min (r.depth + distance) floor) farDepth else min (r.depth - distance) farDepth
    table.zoneAt floor keepDepth = some keepZone → table.zoneAt floor farDepth = some farZone →
    s.spanZones table r = some span →
    r.state = .moving → r.proofStatus ≠ .lapsed → k.height ≤ x → x ≤ floor →
    (∀ z ∈ runZones (table.overlap floor (x - k.height) x), (table.entry z).kind ≠ .barred) →
    s.timers.arrivalTolerance < ((x : Int) - r.depth).natAbs →
    (m.direction = .down → r.depth ≤ x) → (m.direction = .up → x ≤ r.depth) → s.moveConflict h x = none →
    let kept : Run :=
      if down then ⟨run.top, max run.top (min run.bottom (max keepZone span.bottom))⟩
      else ⟨min run.bottom (max run.top (min keepZone span.top)), run.bottom⟩
    let extent :=
      (if down then List.range' (kept.bottom + 1) (farZone - kept.bottom)
        else (List.range' farZone (kept.top - farZone)).reverse).takeWhile fun z => (table.entry z).kind != .barred
    ∃ t n j, exec (.move o b target p) s = .next (State.answered t o 0x20 .accepted 0 []) ∧
      (t.hoist h).move = some n ∧
      n =
        { m with
          target := x
          parkOnArrival := p != 0
          waited := m.waited || (t.hoist h).extent != []
          degraded := m.degraded || r.proofStatus == .due } ∧
      (t.hoist h).extent = extent.drop j ∧
      (t.hoist h).run = (extent.take j).foldl (fun run z => growRun run m.direction z) (some kept) ∧
      (∀ z ∈ extent.take j, ∀ y, y ≠ h → (s.hoist y).inCompartment k.compartment = true →
        inRun (t.hoist y).run z = false) ∧
      (∀ z, (t.hoist h).extent.head? = some z → t.holder k.compartment z ≠ none) ∧
      t.hoist h =
        { r with
          run := (t.hoist h).run
          extent := (t.hoist h).extent
          envDown := t.envelope (t.hoist h) .down
          envUp := t.envelope (t.hoist h) .up
          move := some n } ∧
      (∀ y, y ≠ h → (s.hoist y).OnlyClaims (t.hoist y)) ∧
      t = { (if r.proofStatus = .due then s.latchedBit 64 else s) with hoists := t.hoists }

/-- ABORT, GROUP_STOP and ALL_STOP send each MOVING hoist they name to STOPPING with reason STOPPED and change no other; the two
group orders answer with how many, and a broadcast ALL_STOP is carried out without an answer, whatever the strap address (R48,
R49, R59, R180). -/
def Obligations.StopOrders : Prop :=
  ∀ (o : OrderHead) (b : Byte) (s : State),
    let stops := fun (named : HoistId → Prop) (t : State) =>
      (∀ h, named h → (s.hoist h).state = .moving → t.hoist h = (s.hoist h).stopped .stopped) ∧
      (∀ h, ¬(named h ∧ (s.hoist h).state = .moving) → t.hoist h = s.hoist h) ∧ t = { s with hoists := t.hoists }
    (s.Takes o → ∀ (h : HoistId) (k : HoistConfig), b.toNat = h.val + 1 → (s.hoist h).config = some k →
      ((s.hoist h).state = .moving → exec (.abort o b) s = .next (State.answered
        (s.withHoist h ((s.hoist h).stopped .stopped)) o 0x15 .accepted 0 [])) ∧
      ((s.hoist h).state = .stopping → exec (.abort o b) s = .next (s.answered o 0x15 .accepted 0 [])) ∧
      ((s.hoist h).state ≠ .moving → (s.hoist h).state ≠ .stopping →
        exec (.abort o b) s = .next (s.answered o 0x15 .state 0 []))) ∧
    (s.Takes o → ∀ g : GroupId, b.toNat = g.val + 1 → ∃ t, stops (fun h => (s.group g).getLsbD h.val = true) t ∧
      exec (.groupStop o b) s = .next (State.answered t o 0x19 .accepted
        (allHoists.filter fun h => (s.group g).getLsbD h.val && (s.hoist h).state == .moving).length [])) ∧
    (s.Takes o → ∃ t, stops (fun _ => True) t ∧ exec (.allStop o) s = .next (State.answered t o 0x1A .accepted
      (allHoists.filter fun h => (s.hoist h).state == .moving).length [])) ∧
    (s.resetInput = false → o.address = 63 → ∃ t, stops (fun _ => True) t ∧
      exec (.allStop o) s = .next { t with uplinkReceiving := false })

/-- RESET_HOIST of a TRIPPED hoist that is FRESH, stands with its brake set and has no open handover. With no zone of its span
barred or in another's run, and its span in rank order with the runs of the others, the hoist is PARKED with no trip cause and a
closed trip line, its run is what its span overlaps, and of the other hoists only the claims may change; else it is refused with
CONFLICT (R54, R62, R76). That CONFLICT answers a failure of the rank order is deduced (log 30). -/
def Obligations.ResetHoistParks : Prop :=
  ∀ (o : OrderHead) (b : Byte) (s : State) (h : HoistId) (k : HoistConfig), s.Takes o → b.toNat = h.val + 1 →
    (s.hoist h).config = some k →
    let r := s.hoist h
    let table := (s.comp k.compartment).committed
    let span := s.spanZones table r
    let clear := ∀ z ∈ runZones span, (table.entry z).kind ≠ .barred ∧ ∀ x, s.holder k.compartment z = some x → x = h
    let ordered := ∀ x, (s.hoist x).inCompartment k.compartment = true →
      (k.rank < (s.hoist x).rank → above span (s.hoist x).run) ∧ ((s.hoist x).rank < k.rank → above (s.hoist x).run span)
    r.state = .tripped → r.freshness = .fresh → (∀ l, r.latest = some l → l.brake = .set) → s.openHandover h = none →
    (clear → ordered → r.extent = [] → ∃ t, exec (.resetHoist o b) s = .next (State.answered t o 0x14 .accepted 0 []) ∧
      t.hoist h = { r.atRest .parked with tripCause := none, run := span } ∧
      (∀ y, y ≠ h → (s.hoist y).OnlyClaims (t.hoist y)) ∧ t = { s with hoists := t.hoists }) ∧
    (¬(clear ∧ ordered) → exec (.resetHoist o b) s = .next (s.answered o 0x14 .conflict 0 []))

/-- CEILING writes the hoist's profile ceiling, saturated, and GROUP_CEILING that of each configured member, answering with how
many; the envelope of each is recomputed and nothing else changes (R58). GROUP_WRITE makes the group exactly the set given, and
refuses a group outside G1 to G4 or a set with a bit above H6 with TARGET; it changes nothing else (R57). -/
def Obligations.CeilingsAndGroupsAreWritten : Prop :=
  ∀ (o : OrderHead) (b set : Byte) (v : Half) (s : State), s.Takes o →
    let written := fun (t : State) (h : HoistId) =>
      t.hoist h =
        { s.hoist h with
          profileCeiling := min 20000 v.toNat
          envDown := t.envelope (t.hoist h) .down
          envUp := t.envelope (t.hoist h) .up }
    (∀ h : HoistId, b.toNat = h.val + 1 →
      ((s.hoist h).config = none → exec (.ceiling o b v) s = .next (s.answered o 0x16 .state 0 [])) ∧
      (∀ k, (s.hoist h).config = some k → ∃ t,
        exec (.ceiling o b v) s = .next (State.answered t o 0x16 .accepted 0 []) ∧ written t h ∧
        t = s.withHoist h (t.hoist h))) ∧
    (∀ g : GroupId, b.toNat = g.val + 1 → ∃ t,
      exec (.groupCeiling o b v) s = .next (State.answered t o 0x18 .accepted
        (allHoists.filter fun h => (s.group g).getLsbD h.val && (s.hoist h).configured).length []) ∧
      (∀ h, (s.group g).getLsbD h.val = true → (s.hoist h).configured = true → written t h) ∧
      (∀ h, ¬((s.group g).getLsbD h.val = true ∧ (s.hoist h).configured = true) → t.hoist h = s.hoist h) ∧
      t = { s with hoists := t.hoists }) ∧
    (b.toNat = 0 ∨ 6 < b.toNat → exec (.ceiling o b v) s = .next (s.answered o 0x16 .target 0 [])) ∧
    (b.toNat = 0 ∨ 4 < b.toNat → exec (.groupCeiling o b v) s = .next (s.answered o 0x18 .target 0 [])) ∧
    (∀ g : GroupId, b.toNat = g.val + 1 → set.toNat < 64 → ∃ t,
      exec (.groupWrite o b set) s = .next (State.answered t o 0x17 .accepted 0 []) ∧
      (∀ h : HoistId, (t.group g).getLsbD h.val = set.getLsbD h.val) ∧ (∀ x, x ≠ g → t.group x = s.group x) ∧
      t = { s with groups := t.groups }) ∧
    (b.toNat = 0 ∨ 4 < b.toNat ∨ 64 ≤ set.toNat →
      exec (.groupWrite o b set) s = .next (s.answered o 0x17 .target 0 []))

/-! ## Orders of the landings -/

/-- TRANSFER of a READY hoist that docks at a landing and fits there: the hoist is DOCKED with its demand-age timer running on,
and the handover joins the queue. With the shuttle free and nothing else waiting it is granted a slot, which becomes RESERVED,
and LATCH goes out; with no slot to be had it closes at once with HANDOVER latched. With the shuttle not free it waits and is
marked as having waited (R123, R124, R127). That a COLLECT naming a slot alone has the slot's mass from acceptance is deduced
(log 21). -/
def Obligations.TransferOpensAHandover : Prop :=
  ∀ (o : OrderHead) (b kd sel mb : Byte) (s : State) (h : HoistId) (k : HoistConfig) (l : LandingId) (rec : LandingRec)
      (q : TransferRequest),
    s.Takes o → b.toNat = h.val + 1 → (s.hoist h).config = some k → (s.comp k.compartment).state = .supervised →
    (s.hoist h).state = .ready → kd.toNat = q.kind.code →
    sel.toNat = (match q.slot with | some i => i | none => 255) → rec.slots.length ≤ 8 →
    mb.toNat = (match q.mass with | some m => m.val + 1 | none => 0) →
    s.DocksAt h k.compartment l rec → s.TransferFits h k.compartment l rec q →
    let r := s.hoist h
    let x := s.landing l
    let mass :=
      match q.kind, q.slot, q.mass, r.carried with
      | .deposit, _, _, .mass m => some m
      | .collect, some i, none, _ =>
        match rec.slots[i]? with
        | some (.occupied m) => some m
        | _ => none
      | _, _, m, _ => m
    let v : Handover := ⟨h, q.kind, q.slot, mass, .waiting, none, none, false, false⟩
    let docked : Hoist :=
      { r with
        state := .docked
        tripLineOpen := false
        engageTimer := none
        proofTimer := none
        stopAllowance := none
        envDown := 0
        envUp := 0 }
    let out := fun (t : State) => exec (.transfer o b kd sel mb) s =
      .next (State.answered t o 0x30 .accepted (l.val + 1) [])
    (x.holder = .none → x.shuttle = .idle → (∀ w ∈ x.queue, w.phase ≠ .waiting) →
      (∀ i m, s.chooseSlot l rec v = some (i, m) → out
        { (s.withHoist h docked).withLanding l
            { x with
              record := some { rec with slots := rec.slots.set i (.reserved m) }
              holder := .handover h
              queue := x.queue ++
                [{ v with
                    slot := some i
                    mass := some m
                    phase := .latching
                    timer := some (s.now + 1000 * s.timers.latchLimit) }] } with
          outbox := s.outbox ++ [(.field, makeFrame (byte rec.station) kindShuttleReq
            [1, if k.compartment = .a then 0 else 1, byte i])] }) ∧
      (s.chooseSlot l rec v = none → ∃ r', out ((s.withHoist h r').latchedBit 4) ∧
        r' = { docked with state := .ready, envDown := r'.envDown, envUp := r'.envUp })) ∧
    (x.holder ≠ .none ∨ x.shuttle ≠ .idle → out
      ((s.withHoist h { docked with move := r.move.map fun m => { m with waited := true } }).withLanding l
        { x with queue := x.queue ++ [{ v with waited := true }] }))

/-- ABORT_TRANSFER by the phase of the handover: WAITING closes it, LATCHING reverts the slot and asks for UNLATCH with the
outcome ABANDONED, and any later phase or no handover at all is refused with STATE (R132). -/
def Obligations.AbortTransferByPhase : Prop :=
  ∀ (o : OrderHead) (b : Byte) (s : State) (h : HoistId) (k : HoistConfig), s.Takes o → b.toNat = h.val + 1 →
    (s.hoist h).config = some k →
    (s.openHandover h = none → exec (.abortTransfer o b) s = .next (s.answered o 0x31 .state 0 [])) ∧
    ∀ (l : LandingId) (v : Handover), s.openHandover h = some (l, v) →
      (v.phase ∈ [.transferring, .unlatching, .stuck] →
        exec (.abortTransfer o b) s = .next (s.answered o 0x31 .state 0 [])) ∧
      (v.phase = .waiting → (s.landing l).holder ≠ .handover h →
        (∀ x ∈ (s.landing l).queue, x.hoist ≠ h → x.phase ≠ .waiting) →
        ∃ r', exec (.abortTransfer o b) s = .next (State.answered
            ((s.withLanding l
              { s.landing l with queue := (s.landing l).queue.filter fun x => x.hoist != h }).withHoist h r')
            o 0x31 .accepted 0 []) ∧
          ((s.hoist h).state = .docked → r'.state = .ready ∧ r'.demandTimer = (s.hoist h).demandTimer) ∧
          ((s.hoist h).state ≠ .docked → r' = { s.hoist h with envDown := r'.envDown, envUp := r'.envUp }) ∧
          (s.hoist h).SameTrack r' ∧ r'.move = (s.hoist h).move ∧ r'.run = (s.hoist h).run) ∧
      (∀ (rec : LandingRec) (i : Nat) (m : MassId), v.phase = .latching → (s.landing l).record = some rec →
        v.slot = some i → v.mass = some m → exec (.abortTransfer o b) s = .next (State.answered
          { s.withLanding l
              { s.landing l with
                record := some
                  { rec with slots := rec.slots.set i (if v.kind = .deposit then .empty else .occupied m) }
                queue := (s.landing l).queue.map fun x =>
                  if x.hoist = h then
                    { x with
                      outcome := some .abandoned
                      settled := true
                      phase := .unlatching
                      timer := some (s.now + 1000 * s.timers.latchLimit) }
                  else x } with
            outbox := s.outbox ++ [(.field, makeFrame (byte rec.station) kindShuttleReq
              [4, if k.compartment = .a then 0 else 1, byte i])] } o 0x31 .accepted 0 []))

/-- RESOLVE of a STUCK handover asks for UNLATCH again. One not yet settled has its mass, slot, carried state and weigh-pending
flag set by the outcome given and is settled FAILED, with detail 1; a settled one keeps its records, with detail 0. Anything
else is refused (R136). -/
def Obligations.ResolveFreesAStuckHandover : Prop :=
  ∀ (o : OrderHead) (b x : Byte) (s : State) (h : HoistId) (k : HoistConfig), s.Takes o → b.toNat = h.val + 1 →
    (s.hoist h).config = some k →
    (2 < x.toNat → exec (.resolve o b x) s = .next (s.answered o 0x32 .range 0 [])) ∧
    (x.toNat ≤ 2 → (s.openHandover h = none ∨ ∃ l v, s.openHandover h = some (l, v) ∧ v.phase ≠ .stuck) →
      exec (.resolve o b x) s = .next (s.answered o 0x32 .state 0 [])) ∧
    ∀ (l : LandingId) (rec : LandingRec) (v : Handover) (i : Nat) (m : MassId), s.openHandover h = some (l, v) →
      v.phase = .stuck → (s.landing l).record = some rec → v.slot = some i → v.mass = some m → x.toNat ≤ 2 →
      let unlatch := (Port.field, makeFrame (byte rec.station) kindShuttleReq
        [4, if k.compartment = .a then 0 else 1, byte i])
      let queue := fun (f : Handover → Handover) => (s.landing l).queue.map fun y =>
        if y.hoist = h then
          { f y with phase := .unlatching, timer := some (s.now + 1000 * s.timers.latchLimit) }
        else y
      (v.settled = true → exec (.resolve o b x) s = .next (State.answered
        { s.withLanding l { s.landing l with queue := queue id } with outbox := s.outbox ++ [unlatch] }
        o 0x32 .accepted 0 [])) ∧
      (v.settled = false → exec (.resolve o b x) s = .next (State.answered
        { ((s.withLanding l
              { s.landing l with
                record := some
                  { rec with
                    slots := rec.slots.set i
                      (if x = 0 then .empty else if x = 1 then .occupied m else .unverified (some m)) }
                queue := queue fun y => { y with outcome := some .failed, settled := true } }).withHoist h
            { s.hoist h with
              carried := if x = 0 then .mass m else if x = 1 then .none else .unknownLoad
              weighPending := if x = 1 then false else true }).withMass m
            { s.mass m with
              status :=
                if x = 0 then .placed (.hoist h)
                else if x = 1 then .placed (.slot l i)
                else .uncertain (some (.slot l i)) } with
          outbox := s.outbox ++ [unlatch] } o 0x32 .accepted 1 []))

/-- BLOCK_SLOT blocks a slot no handover uses with what it names, and the mass of an OCCUPIED one becomes UNCERTAIN, expected
there. UNBLOCK_SLOT leaves a BLOCKED one UNVERIFIED with the same expectation, and refuses any other with STATE (R138,
R139). -/
def Obligations.BlockAndUnblockSlot : Prop :=
  ∀ (o : OrderHead) (b i : Byte) (s : State), s.Takes o →
    let block := exec (.blockSlot o b i) s
    let unblock := exec (.unblockSlot o b i) s
    let blocked := fun (r : Result) => block = .next (s.answered o 0x33 r 0 [])
    let unblocked := fun (r : Result) => unblock = .next (s.answered o 0x34 r 0 [])
    ((∀ l : LandingId, b.toNat = l.val + 1 → (s.landing l).record = none) → blocked .target ∧ unblocked .target) ∧
    ∀ (l : LandingId) (rec : LandingRec), b.toNat = l.val + 1 → (s.landing l).record = some rec →
      let used := ∃ v ∈ (s.landing l).queue, v.slot = some i.toNat
      let put := fun (st : SlotState) => s.withLanding l
        { s.landing l with record := some { rec with slots := rec.slots.set i.toNat st } }
      (rec.slots.length ≤ i.toNat → blocked .range ∧ unblocked .range) ∧
      (i.toNat < rec.slots.length → (s.landing l).survey = true → blocked .busy ∧ unblocked .busy) ∧
      ((s.landing l).survey = false → ∀ st, rec.slots[i.toNat]? = some st →
        (used → blocked .state ∧ unblocked .state) ∧
        (∀ m, st = .reserved m → blocked .state) ∧
        ((∀ x, st ≠ .blocked x) → unblocked .state) ∧
        (¬used →
          (st = .empty → block = .next (State.answered (put (.blocked none)) o 0x33 .accepted 0 [])) ∧
          (∀ m, st = .occupied m → block = .next (State.answered
            ((put (.blocked (some m))).withMass m { s.mass m with status := .uncertain (some (.slot l i.toNat)) })
            o 0x33 .accepted 0 [])) ∧
          (∀ x, st = .unverified x ∨ st = .blocked x →
            block = .next (State.answered (put (.blocked x)) o 0x33 .accepted 0 [])) ∧
          (∀ x, st = .blocked x →
            unblock = .next (State.answered (put (.unverified x)) o 0x34 .accepted 0 []))))

/-! ## Orders of the mass registry -/

/-- DECLARE_MASS at a free place outside supervision takes the mass from its former place, writes its record and expects it at
the place given; REMOVE_MASS takes it from its place and makes it ABSENT. No other record, slot or hoist changes (R143 to
R145). The former place is the one the mass record names, as deduced (log 20). -/
def Obligations.DeclareAndRemoveMass : Prop :=
  ∀ (o : OrderHead) (b : Byte) (m : MassId) (s : State), s.Takes o → b.toNat = m.val + 1 →
    let former := (s.mass m).status.place
    let served := fun (p : Place) (c : Compartment) =>
      match p with
      | .slot l _ => ∃ rec, (s.landing l).record = some rec ∧ rec.serves c = true
      | .hoist h => (s.hoist h).inCompartment c = true
    let outside := fun (p : Place) => ∀ c, served p c → (s.comp c).state ≠ .supervised
    let vacated := fun (st : SlotState) =>
      if st = .occupied m then SlotState.empty
      else if st = .unverified (some m) then .unverified none
      else if st = .blocked (some m) then .blocked none
      else st
    let changed := fun (t : State) =>
      (∀ l, t.landing l = { s.landing l with record := (t.landing l).record }) ∧
      (∀ l, (s.landing l).record = none → (t.landing l).record = none) ∧
      (∀ l rec, (s.landing l).record = some rec → ∃ x, (t.landing l).record = some x ∧
        x = { rec with slots := x.slots } ∧ x.slots.length = rec.slots.length) ∧
      (∀ h, t.hoist h = { s.hoist h with carried := (t.hoist h).carried }) ∧
      (∀ x, x ≠ m → t.mass x = s.mass x) ∧
      t = { s with landings := t.landings, hoists := t.hoists, masses := t.masses }
    (∀ p, former = some p → outside p) →
    ((s.mass m).status = .absent → exec (.removeMass o b) s = .next (s.answered o 0x41 .accepted 0 [])) ∧
    ((s.mass m).status ≠ .absent → ∃ t,
      exec (.removeMass o b) s = .next (State.answered t o 0x41 .accepted 1 []) ∧ changed t ∧
      t.mass m = ⟨.absent, none, none⟩ ∧
      (∀ l i, t.slotAt l i = if former = some (.slot l i) then vacated (s.slotAt l i) else s.slotAt l i) ∧
      (∀ h, (t.hoist h).carried =
        if former = some (.hoist h) ∧ (s.hoist h).carried = .mass m then .none else (s.hoist h).carried)) ∧
    ∀ (n : Half) (kind place slot : Byte) (p : Place), 5000 ≤ n.toNat → n.toNat ≤ 60000 → outside p →
      (match p with
        | .slot l i => kind = 0 ∧ place.toNat = l.val + 1 ∧ slot.toNat = i ∧
            (∃ rec, (s.landing l).record = some rec ∧ i < rec.slots.length) ∧
            s.slotAt l i ∈ [.empty, .unverified none, .unverified (some m), .occupied m]
        | .hoist h => kind = 1 ∧ place.toNat = h.val + 1 ∧ (∃ k, (s.hoist h).config = some k) ∧
            (s.hoist h).carried ∈ [.none, .mass m, .unknownLoad]) →
      ∃ t, exec (.declareMass o b n kind place slot) s = .next (State.answered t o 0x40 .accepted 0 []) ∧ changed t ∧
        t.mass m = ⟨.uncertain (some p), some n.toNat, none⟩ ∧
        (∀ l i, t.slotAt l i =
          if p = .slot l i then .unverified (some m)
          else if former = some (.slot l i) then vacated (s.slotAt l i)
          else s.slotAt l i) ∧
        (∀ h, (t.hoist h).carried =
          if p = .hoist h then .mass m
          else if former = some (.hoist h) ∧ (s.hoist h).carried = .mass m then .none
          else (s.hoist h).carried)

/-- VERIFY at a landing with no handover and a free shuttle, all its compartments SUPERVISED: the survey is present and holds
the shuttle, its timer starts, and SURVEY goes to the station with the lowest-lettered compartment as side; a refusal changes
nothing (R152). -/
def Obligations.VerifyStartsASurvey : Prop :=
  ∀ (o : OrderHead) (b : Byte) (s : State) (l : LandingId) (rec : LandingRec), s.Takes o → b.toNat = l.val + 1 →
    (s.landing l).record = some rec →
    let free := (s.landing l).queue = [] ∧ (s.landing l).survey = false ∧ (s.landing l).holder = .none ∧
      (s.landing l).shuttle = .idle
    let allIn := ∀ c, rec.serves c = true → (s.comp c).state = .supervised
    (¬allIn → exec (.verify o b) s = .next (s.answered o 0x42 .scope 0 [])) ∧
    (allIn → ¬free → exec (.verify o b) s = .next (s.answered o 0x42 .busy 0 [])) ∧
    (allIn → free → exec (.verify o b) s = .next (State.answered
      { s.withLanding l
          { s.landing l with
            survey := true
            holder := .survey
            surveyTimer := some (s.now + 1000 * s.timers.surveyLimit) } with
        outbox := s.outbox ++ [(.field, makeFrame (byte rec.station) kindShuttleReq
          [5, if rec.servesA = true then 0 else 1, 0])] } o 0x42 .accepted 0 []))

/-- RELEASE_SCOPE of a SUPERVISED compartment whose hoists are PARKED and whose landings are at rest: the compartment is
RELEASED, each of its hoists RELEASED_LOCAL with an empty run, every zone is free, and nothing else changes (R146). -/
def Obligations.ReleaseScopeFreesZones : Prop :=
  ∀ (o : OrderHead) (b : Byte) (c : Compartment) (s : State), s.Takes o → b.toNat = c.code →
    let parked := ∀ h, (s.hoist h).inCompartment c = true → (s.hoist h).state = .parked
    let atRest := ∀ l rec, (s.landing l).record = some rec → rec.serves c = true →
      (s.landing l).queue = [] ∧ (s.landing l).survey = false
    let refused := fun (r : Result) => exec (.releaseScope o b) s = .next (s.answered o 0x43 r 0 [])
    ((s.comp c).state ≠ .supervised → refused .scope) ∧
    ((s.comp c).state = .supervised → ¬parked → refused .state) ∧
    ((s.comp c).state = .supervised → parked → ¬atRest → refused .busy) ∧
    ((s.comp c).state = .supervised → parked → atRest → ∃ t,
      exec (.releaseScope o b) s = .next (State.answered t o 0x43 .accepted 0 []) ∧
      t.comp c = { s.comp c with state := .released } ∧ (∀ d, d ≠ c → t.comp d = s.comp d) ∧
      (∀ h, (s.hoist h).inCompartment c = true →
        t.hoist h = { (s.hoist h).atRest .releasedLocal with run := none }) ∧
      (∀ h, (s.hoist h).inCompartment c = false → t.hoist h = s.hoist h) ∧ (∀ z, t.holder c z = none) ∧
      t = { s with compA := t.compA, compB := t.compB, hoists := t.hoists })

/-- ADMIT_SCOPE of a compartment outside supervision with a committed table, its hoists fit, no handover at its landings and no
conflict: it is SUPERVISED, each of its hoists is PARKED on the zones of its span and weighs what it carries, and every slot and
mass of its landings is doubted. What the other compartment's hoists hold stays (R147 to R149). That a C held beyond a lowered
floor is tested, and its hoist PARKED, in the last zone is the model's choice (log 28), and at which zone a conflict of rank order
is found is deduced (log 14). -/
def Obligations.AdmitScopeDoubtsRecords : Prop :=
  ∀ (o : OrderHead) (b : Byte) (c : Compartment) (s : State), s.Takes o → b.toNat = c.code →
    (s.comp c).state ≠ .supervised → (s.comp c).committed.count ≠ 0 →
    (∀ h, (s.hoist h).inCompartment c = true →
      (s.hoist h).freshness = .fresh ∧ ∀ l, (s.hoist h).latest = some l → l.brake = .set) →
    (∀ l rec, (s.landing l).record = some rec → rec.serves c = true → (s.landing l).queue = []) →
    conflictZone (s.comp c).committed (s.candidates c (s.comp c).committed) = none →
    let carries := fun (m : MassId) (h : HoistId) =>
      (s.hoist h).inCompartment c = true ∧ (s.hoist h).carried = .mass m
    let lies := fun (m : MassId) (l : LandingId) (i : Nat) =>
      s.landingServes l c = true ∧ s.slotAt l i = .occupied m
    ∃ t, exec (.admitScope o b) s = .next (State.answered t o 0x44 .accepted 0 []) ∧
      t.comp c = { s.comp c with state := .supervised } ∧ (∀ d, d ≠ c → t.comp d = s.comp d) ∧
      (∀ h, (s.hoist h).inCompartment c = false → t.hoist h = s.hoist h) ∧
      (∀ h, (s.hoist h).inCompartment c = true → t.hoist h =
        { (s.hoist h).atRest .parked with
          run := s.spanZones (s.comp c).committed (s.hoist h)
          extent := []
          weighPending := if (s.hoist h).carried = .none then (s.hoist h).weighPending else true }) ∧
      (∀ l, s.landingServes l c = false → t.landing l = s.landing l) ∧
      (∀ l rec, (s.landing l).record = some rec → rec.serves c = true → t.landing l =
        { s.landing l with record := some { rec with slots := rec.slots.map SlotState.marked } }) ∧
      (∀ m, (∀ h, ¬carries m h) → (∀ l i, ¬lies m l i) → t.mass m = s.mass m) ∧
      (∀ m h, carries m h → (∀ x, carries m x → x = h) → (∀ l i, ¬lies m l i) →
        t.mass m = { s.mass m with status := .uncertain (some (.hoist h)) }) ∧
      (∀ m l i, lies m l i → (∀ y j, lies m y j → y = l ∧ j = i) →
        t.mass m = { s.mass m with status := .uncertain (some (.slot l i)) }) ∧
      t =
        { s with
          compA := t.compA
          compB := t.compB
          hoists := t.hoists
          landings := t.landings
          masses := t.masses }

/-- What the weighing that ReportTaken names (R150) makes of the carried state, from the load less the tare and the empty
threshold of 2,500: an empty conveyance carries NONE, a loaded one with nothing recorded carries UNKNOWN_LOAD, and a known mass
takes the measured weight and is PLACED on the hoist. WEIGHT is latched where the records did not agree, and the flag is cleared
in every case (R151). The tolerance is that of R151, against R141 (log 32). -/
def Obligations.WeighingSettlesTheLoad : Prop :=
  ∀ (s : State) (h : HoistId) (l : Latest) (k : HoistConfig), (s.hoist h).latest = some l → (s.hoist h).config = some k →
    let net := l.load - k.tare
    let t := fun (x : Carried) => s.withHoist h { s.hoist h with carried := x, weighPending := false }
    (net < 2500 →
      ((s.hoist h).carried = .none → s.weigh h = t .none) ∧
      (∀ m, (s.hoist h).carried = .mass m →
        s.weigh h = (((t .none).withMass m { s.mass m with status := .uncertain none }).latchedBit 32)) ∧
      ((s.hoist h).carried = .unknownLoad → s.weigh h = (t .none).latchedBit 32)) ∧
    (2500 ≤ net →
      ((s.hoist h).carried = .none ∨ (s.hoist h).carried = .unknownLoad →
        s.weigh h = (t .unknownLoad).latchedBit 32) ∧
      (∀ m n, (s.hoist h).carried = .mass m → (s.mass m).nominal = some n →
        let u := (t (.mass m)).withMass m { s.mass m with measured := some net, status := .placed (.hoist h) }
        let close := ((net : Int) - n).natAbs ≤ n * s.timers.weightTolerance / 100
        (close → s.weigh h = u) ∧ (¬close → s.weigh h = u.latchedBit 32)))

/-- DONE of a survey with a code for every slot reconciles the slots in index order and ends the survey (R153). Each slot is
settled by its code. A BLOCKED slot is passed over; code 0 empties the slot; 255 blocks it and keeps what it names; the code of a
declared mass puts it there, OCCUPIED when it is UNCERTAIN or PLACED in this slot and BLOCKED when it is PLACED elsewhere, and its
former place is left in doubt; any other code blocks it with nothing. The mass a slot named and names no longer is UNCERTAIN if
its place was still this slot, and VERIFY is latched unless the finding agrees (R154). That the code of the slot's own mass, while
that mass is the mass of an open handover, blocks the slot and latches nothing is the model's choice (log 33). -/
def Obligations.SurveySettlesASlot : Prop :=
  (∀ (a : Byte) (w : ShuttleWire) (s : State) (l : LandingId) (rec : LandingRec), s.resetInput = false → a ≠ 0 →
    w.survey.length ≤ 8 → s.shuttleAt a = some l → (s.landing l).record = some rec → (s.landing l).holder = .survey →
    (s.landing l).queue = [] → w.state = 3 → rec.slots.length ≤ w.survey.length →
    let heard := s.withLanding l { s.landing l with shuttle := .done }
    let t := (List.range rec.slots.length).foldl (fun s i => s.reconcileSlot l i (w.survey.getD i 0)) heard
    exec (.shuttleReport a w) s = .next
      { t.withLanding l { t.landing l with survey := false, surveyTimer := none, holder := .none } with
        fieldReceiving := false
        outbox := s.outbox ++ [(.uplink, makeFrame a kindShuttleReport (shuttleBytes w))] }) ∧
  ∀ (s : State) (l : LandingId) (rec : LandingRec) (i : Nat) (code : Byte), (s.landing l).record = some rec →
    i < rec.slots.length →
    let st := s.slotAt l i
    let here := Place.slot l i
    let t := s.reconcileSlot l i code
    let put := fun (x : SlotState) => s.withLanding l
      { s.landing l with record := some { rec with slots := rec.slots.set i x } }
    let declared := fun (x : MassId) => (s.mass x).status ≠ .absent ∧ ¬s.InHandover none x
    (∀ x, st = .blocked x → t = s) ∧
    (st = .empty ∨ st = .unverified none →
      (code = 0 → t = put .empty) ∧ (code = 255 → t = (put (.blocked none)).latchedBit 16) ∧
      (96 < code.toNat → code ≠ 255 → t = (put (.blocked none)).latchedBit 16) ∧
      (∀ x : MassId, code.toNat = x.val + 1 → ¬declared x → t = (put (.blocked none)).latchedBit 16)) ∧
    (∀ e, st = .occupied e ∨ st = .unverified (some e) → (s.mass e).status.place = some here →
      let marked := fun (x : SlotState) (y : MassStatus) => (put x).withMass e { s.mass e with status := y }
      (code = 0 → t = (marked .empty (.uncertain none)).latchedBit 16) ∧
      (code = 255 → t = (marked (.blocked (some e)) (.uncertain (some here))).latchedBit 16) ∧
      (96 < code.toNat → code ≠ 255 → t = (marked (.blocked none) (.uncertain none)).latchedBit 16) ∧
      (∀ x : MassId, x ≠ e → code.toNat = x.val + 1 → ¬declared x →
        t = (marked (.blocked none) (.uncertain none)).latchedBit 16) ∧
      (code.toNat = e.val + 1 → ¬declared e → t = marked (.blocked none) (.uncertain none))) ∧
    ∀ x : MassId, code.toNat = x.val + 1 → declared x → (∀ y, st ≠ .blocked y) →
      let former := (s.mass x).status.place
      let astray := ∃ p, (s.mass x).status = .placed p ∧ p ≠ here
      (t.slotAt l i = .occupied x ∨ astray) ∧ (t.slotAt l i = .blocked (some x) ∨ ¬astray) ∧
      ((t.mass x).status = .placed here ∨ astray) ∧ ((t.mass x).status = .uncertain (some here) ∨ ¬astray) ∧
      (∀ y j, y ≠ l ∨ j ≠ i → t.slotAt y j =
        if former = some (.slot y j) then (s.slotAt y j).doubted x else s.slotAt y j) ∧
      (∀ y, t.hoist y =
        if former = some (.hoist y) ∧ (s.hoist y).carried = .mass x then { s.hoist y with carried := .unknownLoad }
        else s.hoist y) ∧
      (∀ y, t.mass y =
        if y = x then { s.mass y with status := (t.mass y).status }
        else if st.names = some y ∧ (s.mass y).status.place = some here then
          { s.mass y with status := .uncertain none }
        else s.mass y) ∧
      (∀ y, t.landing y = { s.landing y with record := (t.landing y).record }) ∧
      t =
        { (if st.names = some x then s else s.latchedBit 16) with
          landings := t.landings
          hoists := t.hoists
          masses := t.masses }

/-! ## Queries -/

/-- The five queries change nothing but to give their answer: a query of something that is not there is refused, and the others
are ACCEPTED with the bytes R186 lays out (R14, R60, R140, R155, R156). What HOIST_QUERY shows of a hoist that is not configured,
beyond its state, its carried state and its groups, is deduced (log 25). -/
def Obligations.QueriesOnlyAnswer : Prop :=
  ∀ (o : OrderHead) (b x y : Byte) (s : State), s.Takes o →
    let gives := fun (i : Instr) (code : Byte) (data : List Byte) =>
      exec i s = .next (s.answered o code .accepted 0 data)
    let refuses := fun (i : Instr) (code : Byte) (r : Result) => exec i s = .next (s.answered o code r 0 [])
    (1 < b.toNat → refuses (.zoneQuery o b x y) 0x04 .target) ∧
    (∀ c : Compartment, b.toNat = c.code →
      (1 < x.toNat ∨ 48 < y.toNat → refuses (.zoneQuery o b x y) 0x04 .range) ∧
      (x.toNat ≤ 1 → y = 0 → gives (.zoneQuery o b x y) 0x04
        [byte (s.comp c).state.code, byte (s.comp c).committed.count, byte (s.comp c).shadow.count]) ∧
      (x = 1 → 1 ≤ y.toNat → y.toNat ≤ 48 →
        let e := (s.comp c).shadow.entry y.toNat
        gives (.zoneQuery o b x y) 0x04
          (num32 e.upper ++ num16 e.ceiling ++ [byte e.kind.code, byte e.kind.landingCode])) ∧
      (x = 0 → (s.comp c).committed.count < y.toNat → y.toNat ≤ 48 → refuses (.zoneQuery o b x y) 0x04 .target) ∧
      (x = 0 → 1 ≤ y.toNat → y.toNat ≤ 48 → y.toNat ≤ (s.comp c).committed.count →
        let e := (s.comp c).committed.entry y.toNat
        gives (.zoneQuery o b x y) 0x04
          (num32 e.upper ++ num32 ((s.comp c).committed.lower s.shaft.floor y.toNat) ++ num16 e.ceiling ++
            [byte e.kind.code, byte e.kind.landingCode,
              match s.holder c y.toNat with | some h => byte (h.val + 1) | none => 0]))) ∧
    (b.toNat = 0 ∨ 6 < b.toNat → refuses (.hoistQuery o b) 0x11 .target) ∧
    (∀ h : HoistId, b.toNat = h.val + 1 →
      (∀ k, (s.hoist h).config = some k → gives (.hoistQuery o b) 0x11 (s.hoistBytes h k)) ∧
      ((s.hoist h).config = none → ∃ groups, gives (.hoistQuery o b) 0x11
          (List.replicate 17 0 ++ [(s.hoist h).stateByte, 0, (s.hoist h).carriedByte] ++ List.replicate 38 0 ++
            [groups, 0, 0, 0]) ∧
        groups.toNat < 16 ∧ ∀ g : GroupId, groups.getLsbD g.val = (s.group g).getLsbD h.val)) ∧
    (b.toNat = 0 ∨ 16 < b.toNat → refuses (.landingQuery o b) 0x35 .target) ∧
    (∀ l : LandingId, b.toNat = l.val + 1 →
      ((s.landing l).record = none → gives (.landingQuery o b) 0x35 [0]) ∧
      (∀ rec, (s.landing l).record = some rec → gives (.landingQuery o b) 0x35 (s.landingBytes l rec))) ∧
    (b.toNat = 0 ∨ 96 < b.toNat → refuses (.massQuery o b) 0x45 .target) ∧
    (∀ m : MassId, b.toNat = m.val + 1 →
      ((∀ l, ∀ v ∈ (s.landing l).queue, v.mass ≠ some m) → gives (.massQuery o b) 0x45 (s.massBytes m none)) ∧
      (∀ l, ∀ v ∈ (s.landing l).queue, v.mass = some m →
        (∀ y, ∀ u ∈ (s.landing y).queue, u.mass = some m → y = l ∧ u = v) →
        gives (.massQuery o b) 0x45 (s.massBytes m (some (l, v))))) ∧
    gives (.tallyQuery o) 0x46 s.tallyBytes

/-! ## Orders of the part -/

/-- PROVE of a PARKED and FRESH hoist puts it in PROVING with its proof timer running and sends PROOF_REQ, and refuses another
with STATE. PROOF_WRITE with both values in range stores the interval in seconds and the ceiling and evaluates every hoist's
status against them, and refuses others with RANGE (R158, R162). -/
def Obligations.ProveAndProofWrite : Prop :=
  ∀ (o : OrderHead) (s : State), s.Takes o →
    (∀ (b : Byte) (h : HoistId) (k : HoistConfig), b.toNat = h.val + 1 → (s.hoist h).config = some k →
      let r := s.hoist h
      (r.state ≠ .parked ∨ r.freshness ≠ .fresh → exec (.prove o b) s = .next (s.answered o 0x50 .state 0 [])) ∧
      (r.state = .parked → r.freshness = .fresh → exec (.prove o b) s = .next (State.answered
        { s.withHoist h
            { r.atRest .proving with proofTimer := some (s.now + 1000 * s.timers.proofLimit) } with
          outbox := s.outbox ++ [(.field, makeFrame (byte k.driveStation) kindProofReq [])] }
        o 0x50 .accepted 0 []))) ∧
    (∀ hours ceiling : Half,
      let fits := 1 ≤ hours.toNat ∧ hours.toNat ≤ 720 ∧ 500 ≤ ceiling.toNat ∧ ceiling.toNat ≤ 5000
      (¬fits → exec (.proofWrite o hours ceiling) s = .next (s.answered o 0x51 .range 0 [])) ∧
      (fits → ∃ t, exec (.proofWrite o hours ceiling) s = .next (State.answered t o 0x51 .accepted 0 []) ∧
        t.proofInterval = 3600 * hours.toNat ∧ t.degradedCeiling = ceiling.toNat ∧
        (∀ h p, (s.hoist h).lastPass = some p → (∀ l, (s.hoist h).latest = some l → l.envWarning = false) →
          (t.hoist h).proofStatus =
            if s.seconds - p < 3600 * hours.toNat then .current
            else if s.seconds - p < 7200 * hours.toNat then .due
            else .lapsed) ∧
        (∀ h, (s.hoist h).lastPass = none → (t.hoist h).proofStatus = .lapsed) ∧
        (∀ h, s.degradedCeiling ≠ ceiling.toNat → (t.hoist h).proofStatus ≠ .current →
          (t.hoist h).envDown = t.envelope (t.hoist h) .down ∧ (t.hoist h).envUp = t.envelope (t.hoist h) .up) ∧
        State.OnlyHoists { s with proofInterval := t.proofInterval, degradedCeiling := t.degradedCeiling } t))

/-- MASK_WRITE, SCOPE_OPTIONS and TIMER_WRITE write what they are given when every code and value is in its range, MASK_WRITE
without TRIP and with the attention output following at once, and refuse it otherwise; TIMER_WRITE's detail is the first field
out of range (R113, R115, R183). -/
def Obligations.SettingsAreWritten : Prop :=
  ∀ (o : OrderHead) (s : State), s.Takes o →
    (∀ x : Half,
      (8192 ≤ x.toNat → exec (.maskWrite o x) s = .next (s.answered o 0x60 .range 0 [])) ∧
      (x.toNat < 8192 → ∃ mask : BitVec 13, mask.getLsbD 0 = false ∧
        (∀ i, 1 ≤ i → i < 13 → mask.getLsbD i = x.getLsbD i) ∧
        exec (.maskWrite o x) s = .next (State.answered
          { s with mask := mask, attention := s.latched &&& ~~~mask != 0 } o 0x60 .accepted 0 []))) ∧
    (∀ b x y : Byte,
      let scope : TripScope := if x = 0 then .isolate else .stopNeighbours
      let stale : StaleAction := if y = 0 then .stop else .trip
      let out := fun (t : State) => exec (.scopeOptions o b x y) s = .next (State.answered t o 0x61 .accepted 0 [])
      (1 < b.toNat → exec (.scopeOptions o b x y) s = .next (s.answered o 0x61 .target 0 [])) ∧
      (b.toNat ≤ 1 → 1 < x.toNat ∨ 1 < y.toNat →
        exec (.scopeOptions o b x y) s = .next (s.answered o 0x61 .range 0 [])) ∧
      (b = 0 → x.toNat ≤ 1 → y.toNat ≤ 1 →
        out { s with compA := { s.compA with tripScope := scope, staleAction := stale } }) ∧
      (b = 1 → x.toNat ≤ 1 → y.toNat ≤ 1 →
        out { s with compB := { s.compB with tripScope := scope, staleAction := stale } })) ∧
    ∀ p : TimerParams,
      let fits : List Bool :=
        [50 ≤ p.reportLimit.toNat ∧ p.reportLimit.toNat ≤ 1000, 50 ≤ p.staleLimit.toNat ∧ p.staleLimit.toNat ≤ 1000,
         1 ≤ p.engageLimit.toNat ∧ p.engageLimit.toNat ≤ 30,
         5 ≤ p.arrivalTolerance.toNat ∧ p.arrivalTolerance.toNat ≤ 500, p.overspeedMargin.toNat ≤ 2000,
         5 ≤ p.dockingWindow.toNat ∧ p.dockingWindow.toNat ≤ 200, 1 ≤ p.latchLimit.toNat ∧ p.latchLimit.toNat ≤ 60,
         5 ≤ p.transferLimit.toNat ∧ p.transferLimit.toNat ≤ 300,
         1 ≤ p.surveyLimit.toNat ∧ p.surveyLimit.toNat ≤ 60, 5 ≤ p.proofLimit.toNat ∧ p.proofLimit.toNat ≤ 120,
         p.weightTolerance.toNat ≤ 20]
      (∀ n, fits[n]? = some false → (∀ j, j < n → fits[j]? = some true) →
        exec (.timerWrite o p) s = .next (s.answered o 0x7E .range (n + 1) [])) ∧
      ((∀ x ∈ fits, x = true) → exec (.timerWrite o p) s = .next (State.answered
        { s with
          timers :=
            { reportLimit := p.reportLimit.toNat
              staleLimit := p.staleLimit.toNat
              engageLimit := p.engageLimit.toNat
              arrivalTolerance := p.arrivalTolerance.toNat
              overspeedMargin := p.overspeedMargin.toNat
              dockingWindow := p.dockingWindow.toNat
              latchLimit := p.latchLimit.toNat
              transferLimit := p.transferLimit.toNat
              surveyLimit := p.surveyLimit.toNat
              proofLimit := p.proofLimit.toNat
              weightTolerance := p.weightTolerance.toNat } } o 0x7E .accepted 0 []))

/-- STATUS answers with the latched set, the leading category, the mask, the indicators and the open trip lines as they stand,
then clears the latched set and the indicators; RECORDS is latched again while a record or OVERFLOW is held, and no hoist
changes (R116, R117). -/
def Obligations.StatusReportsAndClears : Prop :=
  ∀ (o : OrderHead) (s : State), s.Takes o →
    ∃ (leading links lines : Byte),
      let left : BitVec 13 := if s.records ≠ [] ∨ s.overflow = true then 4096 else 0
      exec (.status o) s = .next (State.answered
        { s with
          links := ⟨false, false, false, false⟩
          latched := left
          attention := left &&& ~~~s.mask != 0 } o 0x62 .accepted 0
        (be16 (s.latched.setWidth 16) ++ [leading] ++ be16 (s.mask.setWidth 16) ++ [links, lines])) ∧
      (s.latched = 0 → leading = 0) ∧
      (∀ i, i < 13 → s.latched.getLsbD i = true → (∀ j, j < i → s.latched.getLsbD j = false) →
        leading.toNat = i + 1) ∧
      (links.getLsbD 0 = s.links.check ∧ links.getLsbD 1 = s.links.length ∧ links.getLsbD 2 = s.links.target ∧
        links.getLsbD 3 = s.links.order ∧ links.toNat < 16) ∧
      (∀ h : HoistId, lines.getLsbD h.val = (s.hoist h).tripLineOpen) ∧ lines.toNat < 64

/-- READ_RECORD removes the oldest record and answers it with how many are left and OVERFLOW, or answers that there is none and
changes nothing (R170). LOG_CONTROL OFF empties the queue and clears OVERFLOW, ON starts logging with both as they were, and any
other setting is refused (R171). -/
def Obligations.RecordsReadAndLogControl : Prop :=
  ∀ (o : OrderHead) (s : State), s.Takes o →
    (s.records = [] → exec (.readRecord o) s = .next (s.answered o 0x70 .accepted 0
      [0, 0, if s.overflow = true then 1 else 0])) ∧
    (∀ x rest, s.records = x :: rest → exec (.readRecord o) s = .next (State.answered { s with records := rest }
      o 0x70 .accepted 0
      ([1, byte rest.length, if s.overflow = true then 1 else 0] ++
        [byte (x.hoist.val + 1), byte x.outcome.code] ++ num32 x.startDepth ++ num32 x.endDepth ++ num32 x.target ++
        num24 x.travelled ++
        [byte x.carried.code,
          byte ((if x.waited then 1 else 0) + (if x.clamped then 2 else 0) + (if x.degraded then 4 else 0))] ++
        num16 x.duration))) ∧
    ∀ b : Byte,
      (b = 0 → exec (.logControl o b) s = .next (State.answered
        { s with records := [], overflow := false, logging := false } o 0x71 .accepted 0 [])) ∧
      (b = 1 → exec (.logControl o b) s = .next (State.answered { s with logging := true } o 0x71 .accepted 0 [])) ∧
      (1 < b.toNat → exec (.logControl o b) s = .next (s.answered o 0x71 .range 0 []))

/-! ## The envelope and the wire -/

/-- The envelope of a READY or MOVING hoist is the greatest speed that keeps its effective ceiling, the ceiling of each zone its
span overlaps, and the stopping distances to each zone ahead and to its run's end or its target; in every other state it is 0
(R83 to R90). -/
def Obligations.EnvelopeIsTheGreatestSafeSpeed : Prop :=
  ∀ (s : State) (r : Hoist) (k : HoistConfig) (d : Direction), r.config = some k →
    (r.state ≠ .ready → r.state ≠ .moving → s.envelope r d = 0) ∧
    (r.state = .ready ∨ r.state = .moving →
      let table := (s.comp k.compartment).committed
      let floor := s.shaft.floor
      let down := d = .down
      let applies := fun (x : Nat) => r.state = .moving ∧ ∃ m, r.move = some m ∧ m.isOpen = true ∧ m.target = x ∧
        (if down then r.depth < x else x < r.depth)
      let ahead := fun (z : Nat) =>
        (if down then r.depth < table.upper z else table.lower floor z ≤ r.spanTop) ∧
        ∀ x y, applies x → table.zoneAt floor (if down then x else x - k.height) = some y →
          if down then z ≤ y else y ≤ z
      let gap := fun (z : Nat) => if down then table.upper z - r.depth else r.spanTop - table.lower floor z
      let room : Nat :=
        match r.run with
        | some run =>
          if down then table.lower floor run.bottom - r.depth - s.shaft.guard
          else r.spanTop - table.upper run.top - s.shaft.guard
        | none => if down then 0 else r.spanTop - s.shaft.guard
      ∀ w : Nat, w ≤ s.envelope r d ↔
        w ≤ r.profileCeiling ∧ (r.proofStatus ≠ .current → w ≤ s.degradedCeiling) ∧
        (∀ z ∈ runZones (table.overlap floor r.spanTop r.depth), w ≤ (table.entry z).ceiling) ∧
        (∀ z ∈ runZones r.run, ahead z → w ^ 2 ≤ (table.entry z).ceiling ^ 2 + 2 * k.decel * gap z) ∧
        w ^ 2 ≤ 2 * k.decel * room ∧
        ∀ x, applies x → w ^ 2 ≤ 2 * k.decel * (if down then x - r.depth else r.depth - x))

/-- Every well-formed command that arrives as a whole frame is the command its frame spells, for a part with the strap address
and pins it was formed for; no byte of a frame is dropped (R173, R175 to R178, R180, R186). -/
def Obligations.FramesReadBack : Prop :=
  ∀ (strap pins : Straps) (i : Instr) (p : Port) (f : Frame), i.wellFormed strap = true → commandFrame i = some (p, f) →
    (∀ o x, i = .restart o x → x = pins) → frameCommand strap pins p f = i
end

