-- ==== Sys2Proof/Laws/State.lean ====
section
/-! SUPPORT. One lemma per field for each update of the state: what an update leaves alone, and what it writes. -/

namespace Sys2Proof.Machine

variable (s : State)

/-! ## setHoist -/

@[simp] theorem State.setHoist_shaft (h : HoistId) (r : Hoist) : (s.setHoist h r).shaft = s.shaft := rfl
@[simp] theorem State.setHoist_compA (h : HoistId) (r : Hoist) : (s.setHoist h r).compA = s.compA := rfl
@[simp] theorem State.setHoist_compB (h : HoistId) (r : Hoist) : (s.setHoist h r).compB = s.compB := rfl
@[simp] theorem State.setHoist_landings (h : HoistId) (r : Hoist) : (s.setHoist h r).landings = s.landings := rfl
@[simp] theorem State.setHoist_masses (h : HoistId) (r : Hoist) : (s.setHoist h r).masses = s.masses := rfl
@[simp] theorem State.setHoist_groups (h : HoistId) (r : Hoist) : (s.setHoist h r).groups = s.groups := rfl
@[simp] theorem State.setHoist_timers (h : HoistId) (r : Hoist) : (s.setHoist h r).timers = s.timers := rfl
@[simp] theorem State.setHoist_proofInterval (h : HoistId) (r : Hoist) : (s.setHoist h r).proofInterval = s.proofInterval := rfl
@[simp] theorem State.setHoist_degradedCeiling (h : HoistId) (r : Hoist) : (s.setHoist h r).degradedCeiling = s.degradedCeiling := rfl
@[simp] theorem State.setHoist_latched (h : HoistId) (r : Hoist) : (s.setHoist h r).latched = s.latched := rfl
@[simp] theorem State.setHoist_mask (h : HoistId) (r : Hoist) : (s.setHoist h r).mask = s.mask := rfl
@[simp] theorem State.setHoist_attention (h : HoistId) (r : Hoist) : (s.setHoist h r).attention = s.attention := rfl
@[simp] theorem State.setHoist_records (h : HoistId) (r : Hoist) : (s.setHoist h r).records = s.records := rfl
@[simp] theorem State.setHoist_logging (h : HoistId) (r : Hoist) : (s.setHoist h r).logging = s.logging := rfl
@[simp] theorem State.setHoist_overflow (h : HoistId) (r : Hoist) : (s.setHoist h r).overflow = s.overflow := rfl
@[simp] theorem State.setHoist_links (h : HoistId) (r : Hoist) : (s.setHoist h r).links = s.links := rfl
@[simp] theorem State.setHoist_strapPins (h : HoistId) (r : Hoist) : (s.setHoist h r).strapPins = s.strapPins := rfl
@[simp] theorem State.setHoist_strapAddress (h : HoistId) (r : Hoist) : (s.setHoist h r).strapAddress = s.strapAddress := rfl
@[simp] theorem State.setHoist_resetInput (h : HoistId) (r : Hoist) : (s.setHoist h r).resetInput = s.resetInput := rfl
@[simp] theorem State.setHoist_uplinkReceiving (h : HoistId) (r : Hoist) : (s.setHoist h r).uplinkReceiving = s.uplinkReceiving := rfl
@[simp] theorem State.setHoist_fieldReceiving (h : HoistId) (r : Hoist) : (s.setHoist h r).fieldReceiving = s.fieldReceiving := rfl
@[simp] theorem State.setHoist_outbox (h : HoistId) (r : Hoist) : (s.setHoist h r).outbox = s.outbox := rfl
@[simp] theorem State.setHoist_seconds (h : HoistId) (r : Hoist) : (s.setHoist h r).seconds = s.seconds := rfl
@[simp] theorem State.setHoist_now (h : HoistId) (r : Hoist) : (s.setHoist h r).now = s.now := rfl
@[simp] theorem State.setHoist_nextSecond (h : HoistId) (r : Hoist) : (s.setHoist h r).nextSecond = s.nextSecond := rfl
@[simp] theorem State.setHoist_pending (h : HoistId) (r : Hoist) : (s.setHoist h r).pending = s.pending := rfl

/-! ## modHoist -/

@[simp] theorem State.modHoist_shaft (h : HoistId) (f : Hoist → Hoist) : (s.modHoist h f).shaft = s.shaft := rfl
@[simp] theorem State.modHoist_compA (h : HoistId) (f : Hoist → Hoist) : (s.modHoist h f).compA = s.compA := rfl
@[simp] theorem State.modHoist_compB (h : HoistId) (f : Hoist → Hoist) : (s.modHoist h f).compB = s.compB := rfl
@[simp] theorem State.modHoist_landings (h : HoistId) (f : Hoist → Hoist) : (s.modHoist h f).landings = s.landings := rfl
@[simp] theorem State.modHoist_masses (h : HoistId) (f : Hoist → Hoist) : (s.modHoist h f).masses = s.masses := rfl
@[simp] theorem State.modHoist_groups (h : HoistId) (f : Hoist → Hoist) : (s.modHoist h f).groups = s.groups := rfl
@[simp] theorem State.modHoist_timers (h : HoistId) (f : Hoist → Hoist) : (s.modHoist h f).timers = s.timers := rfl
@[simp] theorem State.modHoist_proofInterval (h : HoistId) (f : Hoist → Hoist) : (s.modHoist h f).proofInterval = s.proofInterval := rfl
@[simp] theorem State.modHoist_degradedCeiling (h : HoistId) (f : Hoist → Hoist) : (s.modHoist h f).degradedCeiling = s.degradedCeiling := rfl
@[simp] theorem State.modHoist_latched (h : HoistId) (f : Hoist → Hoist) : (s.modHoist h f).latched = s.latched := rfl
@[simp] theorem State.modHoist_mask (h : HoistId) (f : Hoist → Hoist) : (s.modHoist h f).mask = s.mask := rfl
@[simp] theorem State.modHoist_attention (h : HoistId) (f : Hoist → Hoist) : (s.modHoist h f).attention = s.attention := rfl
@[simp] theorem State.modHoist_records (h : HoistId) (f : Hoist → Hoist) : (s.modHoist h f).records = s.records := rfl
@[simp] theorem State.modHoist_logging (h : HoistId) (f : Hoist → Hoist) : (s.modHoist h f).logging = s.logging := rfl
@[simp] theorem State.modHoist_overflow (h : HoistId) (f : Hoist → Hoist) : (s.modHoist h f).overflow = s.overflow := rfl
@[simp] theorem State.modHoist_links (h : HoistId) (f : Hoist → Hoist) : (s.modHoist h f).links = s.links := rfl
@[simp] theorem State.modHoist_strapPins (h : HoistId) (f : Hoist → Hoist) : (s.modHoist h f).strapPins = s.strapPins := rfl
@[simp] theorem State.modHoist_strapAddress (h : HoistId) (f : Hoist → Hoist) : (s.modHoist h f).strapAddress = s.strapAddress := rfl
@[simp] theorem State.modHoist_resetInput (h : HoistId) (f : Hoist → Hoist) : (s.modHoist h f).resetInput = s.resetInput := rfl
@[simp] theorem State.modHoist_uplinkReceiving (h : HoistId) (f : Hoist → Hoist) : (s.modHoist h f).uplinkReceiving = s.uplinkReceiving := rfl
@[simp] theorem State.modHoist_fieldReceiving (h : HoistId) (f : Hoist → Hoist) : (s.modHoist h f).fieldReceiving = s.fieldReceiving := rfl
@[simp] theorem State.modHoist_outbox (h : HoistId) (f : Hoist → Hoist) : (s.modHoist h f).outbox = s.outbox := rfl
@[simp] theorem State.modHoist_seconds (h : HoistId) (f : Hoist → Hoist) : (s.modHoist h f).seconds = s.seconds := rfl
@[simp] theorem State.modHoist_now (h : HoistId) (f : Hoist → Hoist) : (s.modHoist h f).now = s.now := rfl
@[simp] theorem State.modHoist_nextSecond (h : HoistId) (f : Hoist → Hoist) : (s.modHoist h f).nextSecond = s.nextSecond := rfl
@[simp] theorem State.modHoist_pending (h : HoistId) (f : Hoist → Hoist) : (s.modHoist h f).pending = s.pending := rfl

/-! ## setLanding -/

@[simp] theorem State.setLanding_shaft (l : LandingId) (r : Landing) : (s.setLanding l r).shaft = s.shaft := rfl
@[simp] theorem State.setLanding_compA (l : LandingId) (r : Landing) : (s.setLanding l r).compA = s.compA := rfl
@[simp] theorem State.setLanding_compB (l : LandingId) (r : Landing) : (s.setLanding l r).compB = s.compB := rfl
@[simp] theorem State.setLanding_hoists (l : LandingId) (r : Landing) : (s.setLanding l r).hoists = s.hoists := rfl
@[simp] theorem State.setLanding_masses (l : LandingId) (r : Landing) : (s.setLanding l r).masses = s.masses := rfl
@[simp] theorem State.setLanding_groups (l : LandingId) (r : Landing) : (s.setLanding l r).groups = s.groups := rfl
@[simp] theorem State.setLanding_timers (l : LandingId) (r : Landing) : (s.setLanding l r).timers = s.timers := rfl
@[simp] theorem State.setLanding_proofInterval (l : LandingId) (r : Landing) : (s.setLanding l r).proofInterval = s.proofInterval := rfl
@[simp] theorem State.setLanding_degradedCeiling (l : LandingId) (r : Landing) : (s.setLanding l r).degradedCeiling = s.degradedCeiling := rfl
@[simp] theorem State.setLanding_latched (l : LandingId) (r : Landing) : (s.setLanding l r).latched = s.latched := rfl
@[simp] theorem State.setLanding_mask (l : LandingId) (r : Landing) : (s.setLanding l r).mask = s.mask := rfl
@[simp] theorem State.setLanding_attention (l : LandingId) (r : Landing) : (s.setLanding l r).attention = s.attention := rfl
@[simp] theorem State.setLanding_records (l : LandingId) (r : Landing) : (s.setLanding l r).records = s.records := rfl
@[simp] theorem State.setLanding_logging (l : LandingId) (r : Landing) : (s.setLanding l r).logging = s.logging := rfl
@[simp] theorem State.setLanding_overflow (l : LandingId) (r : Landing) : (s.setLanding l r).overflow = s.overflow := rfl
@[simp] theorem State.setLanding_links (l : LandingId) (r : Landing) : (s.setLanding l r).links = s.links := rfl
@[simp] theorem State.setLanding_strapPins (l : LandingId) (r : Landing) : (s.setLanding l r).strapPins = s.strapPins := rfl
@[simp] theorem State.setLanding_strapAddress (l : LandingId) (r : Landing) : (s.setLanding l r).strapAddress = s.strapAddress := rfl
@[simp] theorem State.setLanding_resetInput (l : LandingId) (r : Landing) : (s.setLanding l r).resetInput = s.resetInput := rfl
@[simp] theorem State.setLanding_uplinkReceiving (l : LandingId) (r : Landing) : (s.setLanding l r).uplinkReceiving = s.uplinkReceiving := rfl
@[simp] theorem State.setLanding_fieldReceiving (l : LandingId) (r : Landing) : (s.setLanding l r).fieldReceiving = s.fieldReceiving := rfl
@[simp] theorem State.setLanding_outbox (l : LandingId) (r : Landing) : (s.setLanding l r).outbox = s.outbox := rfl
@[simp] theorem State.setLanding_seconds (l : LandingId) (r : Landing) : (s.setLanding l r).seconds = s.seconds := rfl
@[simp] theorem State.setLanding_now (l : LandingId) (r : Landing) : (s.setLanding l r).now = s.now := rfl
@[simp] theorem State.setLanding_nextSecond (l : LandingId) (r : Landing) : (s.setLanding l r).nextSecond = s.nextSecond := rfl
@[simp] theorem State.setLanding_pending (l : LandingId) (r : Landing) : (s.setLanding l r).pending = s.pending := rfl

/-! ## modLanding -/

@[simp] theorem State.modLanding_shaft (l : LandingId) (f : Landing → Landing) : (s.modLanding l f).shaft = s.shaft := rfl
@[simp] theorem State.modLanding_compA (l : LandingId) (f : Landing → Landing) : (s.modLanding l f).compA = s.compA := rfl
@[simp] theorem State.modLanding_compB (l : LandingId) (f : Landing → Landing) : (s.modLanding l f).compB = s.compB := rfl
@[simp] theorem State.modLanding_hoists (l : LandingId) (f : Landing → Landing) : (s.modLanding l f).hoists = s.hoists := rfl
@[simp] theorem State.modLanding_masses (l : LandingId) (f : Landing → Landing) : (s.modLanding l f).masses = s.masses := rfl
@[simp] theorem State.modLanding_groups (l : LandingId) (f : Landing → Landing) : (s.modLanding l f).groups = s.groups := rfl
@[simp] theorem State.modLanding_timers (l : LandingId) (f : Landing → Landing) : (s.modLanding l f).timers = s.timers := rfl
@[simp] theorem State.modLanding_proofInterval (l : LandingId) (f : Landing → Landing) : (s.modLanding l f).proofInterval = s.proofInterval := rfl
@[simp] theorem State.modLanding_degradedCeiling (l : LandingId) (f : Landing → Landing) : (s.modLanding l f).degradedCeiling = s.degradedCeiling := rfl
@[simp] theorem State.modLanding_latched (l : LandingId) (f : Landing → Landing) : (s.modLanding l f).latched = s.latched := rfl
@[simp] theorem State.modLanding_mask (l : LandingId) (f : Landing → Landing) : (s.modLanding l f).mask = s.mask := rfl
@[simp] theorem State.modLanding_attention (l : LandingId) (f : Landing → Landing) : (s.modLanding l f).attention = s.attention := rfl
@[simp] theorem State.modLanding_records (l : LandingId) (f : Landing → Landing) : (s.modLanding l f).records = s.records := rfl
@[simp] theorem State.modLanding_logging (l : LandingId) (f : Landing → Landing) : (s.modLanding l f).logging = s.logging := rfl
@[simp] theorem State.modLanding_overflow (l : LandingId) (f : Landing → Landing) : (s.modLanding l f).overflow = s.overflow := rfl
@[simp] theorem State.modLanding_links (l : LandingId) (f : Landing → Landing) : (s.modLanding l f).links = s.links := rfl
@[simp] theorem State.modLanding_strapPins (l : LandingId) (f : Landing → Landing) : (s.modLanding l f).strapPins = s.strapPins := rfl
@[simp] theorem State.modLanding_strapAddress (l : LandingId) (f : Landing → Landing) : (s.modLanding l f).strapAddress = s.strapAddress := rfl
@[simp] theorem State.modLanding_resetInput (l : LandingId) (f : Landing → Landing) : (s.modLanding l f).resetInput = s.resetInput := rfl
@[simp] theorem State.modLanding_uplinkReceiving (l : LandingId) (f : Landing → Landing) : (s.modLanding l f).uplinkReceiving = s.uplinkReceiving := rfl
@[simp] theorem State.modLanding_fieldReceiving (l : LandingId) (f : Landing → Landing) : (s.modLanding l f).fieldReceiving = s.fieldReceiving := rfl
@[simp] theorem State.modLanding_outbox (l : LandingId) (f : Landing → Landing) : (s.modLanding l f).outbox = s.outbox := rfl
@[simp] theorem State.modLanding_seconds (l : LandingId) (f : Landing → Landing) : (s.modLanding l f).seconds = s.seconds := rfl
@[simp] theorem State.modLanding_now (l : LandingId) (f : Landing → Landing) : (s.modLanding l f).now = s.now := rfl
@[simp] theorem State.modLanding_nextSecond (l : LandingId) (f : Landing → Landing) : (s.modLanding l f).nextSecond = s.nextSecond := rfl
@[simp] theorem State.modLanding_pending (l : LandingId) (f : Landing → Landing) : (s.modLanding l f).pending = s.pending := rfl

/-! ## setMass -/

@[simp] theorem State.setMass_shaft (m : MassId) (r : Mass) : (s.setMass m r).shaft = s.shaft := rfl
@[simp] theorem State.setMass_compA (m : MassId) (r : Mass) : (s.setMass m r).compA = s.compA := rfl
@[simp] theorem State.setMass_compB (m : MassId) (r : Mass) : (s.setMass m r).compB = s.compB := rfl
@[simp] theorem State.setMass_landings (m : MassId) (r : Mass) : (s.setMass m r).landings = s.landings := rfl
@[simp] theorem State.setMass_hoists (m : MassId) (r : Mass) : (s.setMass m r).hoists = s.hoists := rfl
@[simp] theorem State.setMass_groups (m : MassId) (r : Mass) : (s.setMass m r).groups = s.groups := rfl
@[simp] theorem State.setMass_timers (m : MassId) (r : Mass) : (s.setMass m r).timers = s.timers := rfl
@[simp] theorem State.setMass_proofInterval (m : MassId) (r : Mass) : (s.setMass m r).proofInterval = s.proofInterval := rfl
@[simp] theorem State.setMass_degradedCeiling (m : MassId) (r : Mass) : (s.setMass m r).degradedCeiling = s.degradedCeiling := rfl
@[simp] theorem State.setMass_latched (m : MassId) (r : Mass) : (s.setMass m r).latched = s.latched := rfl
@[simp] theorem State.setMass_mask (m : MassId) (r : Mass) : (s.setMass m r).mask = s.mask := rfl
@[simp] theorem State.setMass_attention (m : MassId) (r : Mass) : (s.setMass m r).attention = s.attention := rfl
@[simp] theorem State.setMass_records (m : MassId) (r : Mass) : (s.setMass m r).records = s.records := rfl
@[simp] theorem State.setMass_logging (m : MassId) (r : Mass) : (s.setMass m r).logging = s.logging := rfl
@[simp] theorem State.setMass_overflow (m : MassId) (r : Mass) : (s.setMass m r).overflow = s.overflow := rfl
@[simp] theorem State.setMass_links (m : MassId) (r : Mass) : (s.setMass m r).links = s.links := rfl
@[simp] theorem State.setMass_strapPins (m : MassId) (r : Mass) : (s.setMass m r).strapPins = s.strapPins := rfl
@[simp] theorem State.setMass_strapAddress (m : MassId) (r : Mass) : (s.setMass m r).strapAddress = s.strapAddress := rfl
@[simp] theorem State.setMass_resetInput (m : MassId) (r : Mass) : (s.setMass m r).resetInput = s.resetInput := rfl
@[simp] theorem State.setMass_uplinkReceiving (m : MassId) (r : Mass) : (s.setMass m r).uplinkReceiving = s.uplinkReceiving := rfl
@[simp] theorem State.setMass_fieldReceiving (m : MassId) (r : Mass) : (s.setMass m r).fieldReceiving = s.fieldReceiving := rfl
@[simp] theorem State.setMass_outbox (m : MassId) (r : Mass) : (s.setMass m r).outbox = s.outbox := rfl
@[simp] theorem State.setMass_seconds (m : MassId) (r : Mass) : (s.setMass m r).seconds = s.seconds := rfl
@[simp] theorem State.setMass_now (m : MassId) (r : Mass) : (s.setMass m r).now = s.now := rfl
@[simp] theorem State.setMass_nextSecond (m : MassId) (r : Mass) : (s.setMass m r).nextSecond = s.nextSecond := rfl
@[simp] theorem State.setMass_pending (m : MassId) (r : Mass) : (s.setMass m r).pending = s.pending := rfl

/-! ## modMass -/

@[simp] theorem State.modMass_shaft (m : MassId) (f : Mass → Mass) : (s.modMass m f).shaft = s.shaft := rfl
@[simp] theorem State.modMass_compA (m : MassId) (f : Mass → Mass) : (s.modMass m f).compA = s.compA := rfl
@[simp] theorem State.modMass_compB (m : MassId) (f : Mass → Mass) : (s.modMass m f).compB = s.compB := rfl
@[simp] theorem State.modMass_landings (m : MassId) (f : Mass → Mass) : (s.modMass m f).landings = s.landings := rfl
@[simp] theorem State.modMass_hoists (m : MassId) (f : Mass → Mass) : (s.modMass m f).hoists = s.hoists := rfl
@[simp] theorem State.modMass_groups (m : MassId) (f : Mass → Mass) : (s.modMass m f).groups = s.groups := rfl
@[simp] theorem State.modMass_timers (m : MassId) (f : Mass → Mass) : (s.modMass m f).timers = s.timers := rfl
@[simp] theorem State.modMass_proofInterval (m : MassId) (f : Mass → Mass) : (s.modMass m f).proofInterval = s.proofInterval := rfl
@[simp] theorem State.modMass_degradedCeiling (m : MassId) (f : Mass → Mass) : (s.modMass m f).degradedCeiling = s.degradedCeiling := rfl
@[simp] theorem State.modMass_latched (m : MassId) (f : Mass → Mass) : (s.modMass m f).latched = s.latched := rfl
@[simp] theorem State.modMass_mask (m : MassId) (f : Mass → Mass) : (s.modMass m f).mask = s.mask := rfl
@[simp] theorem State.modMass_attention (m : MassId) (f : Mass → Mass) : (s.modMass m f).attention = s.attention := rfl
@[simp] theorem State.modMass_records (m : MassId) (f : Mass → Mass) : (s.modMass m f).records = s.records := rfl
@[simp] theorem State.modMass_logging (m : MassId) (f : Mass → Mass) : (s.modMass m f).logging = s.logging := rfl
@[simp] theorem State.modMass_overflow (m : MassId) (f : Mass → Mass) : (s.modMass m f).overflow = s.overflow := rfl
@[simp] theorem State.modMass_links (m : MassId) (f : Mass → Mass) : (s.modMass m f).links = s.links := rfl
@[simp] theorem State.modMass_strapPins (m : MassId) (f : Mass → Mass) : (s.modMass m f).strapPins = s.strapPins := rfl
@[simp] theorem State.modMass_strapAddress (m : MassId) (f : Mass → Mass) : (s.modMass m f).strapAddress = s.strapAddress := rfl
@[simp] theorem State.modMass_resetInput (m : MassId) (f : Mass → Mass) : (s.modMass m f).resetInput = s.resetInput := rfl
@[simp] theorem State.modMass_uplinkReceiving (m : MassId) (f : Mass → Mass) : (s.modMass m f).uplinkReceiving = s.uplinkReceiving := rfl
@[simp] theorem State.modMass_fieldReceiving (m : MassId) (f : Mass → Mass) : (s.modMass m f).fieldReceiving = s.fieldReceiving := rfl
@[simp] theorem State.modMass_outbox (m : MassId) (f : Mass → Mass) : (s.modMass m f).outbox = s.outbox := rfl
@[simp] theorem State.modMass_seconds (m : MassId) (f : Mass → Mass) : (s.modMass m f).seconds = s.seconds := rfl
@[simp] theorem State.modMass_now (m : MassId) (f : Mass → Mass) : (s.modMass m f).now = s.now := rfl
@[simp] theorem State.modMass_nextSecond (m : MassId) (f : Mass → Mass) : (s.modMass m f).nextSecond = s.nextSecond := rfl
@[simp] theorem State.modMass_pending (m : MassId) (f : Mass → Mass) : (s.modMass m f).pending = s.pending := rfl

/-! ## setGroup -/

@[simp] theorem State.setGroup_shaft (g : GroupId) (x : BitVec 6) : (s.setGroup g x).shaft = s.shaft := rfl
@[simp] theorem State.setGroup_compA (g : GroupId) (x : BitVec 6) : (s.setGroup g x).compA = s.compA := rfl
@[simp] theorem State.setGroup_compB (g : GroupId) (x : BitVec 6) : (s.setGroup g x).compB = s.compB := rfl
@[simp] theorem State.setGroup_landings (g : GroupId) (x : BitVec 6) : (s.setGroup g x).landings = s.landings := rfl
@[simp] theorem State.setGroup_hoists (g : GroupId) (x : BitVec 6) : (s.setGroup g x).hoists = s.hoists := rfl
@[simp] theorem State.setGroup_masses (g : GroupId) (x : BitVec 6) : (s.setGroup g x).masses = s.masses := rfl
@[simp] theorem State.setGroup_timers (g : GroupId) (x : BitVec 6) : (s.setGroup g x).timers = s.timers := rfl
@[simp] theorem State.setGroup_proofInterval (g : GroupId) (x : BitVec 6) : (s.setGroup g x).proofInterval = s.proofInterval := rfl
@[simp] theorem State.setGroup_degradedCeiling (g : GroupId) (x : BitVec 6) : (s.setGroup g x).degradedCeiling = s.degradedCeiling := rfl
@[simp] theorem State.setGroup_latched (g : GroupId) (x : BitVec 6) : (s.setGroup g x).latched = s.latched := rfl
@[simp] theorem State.setGroup_mask (g : GroupId) (x : BitVec 6) : (s.setGroup g x).mask = s.mask := rfl
@[simp] theorem State.setGroup_attention (g : GroupId) (x : BitVec 6) : (s.setGroup g x).attention = s.attention := rfl
@[simp] theorem State.setGroup_records (g : GroupId) (x : BitVec 6) : (s.setGroup g x).records = s.records := rfl
@[simp] theorem State.setGroup_logging (g : GroupId) (x : BitVec 6) : (s.setGroup g x).logging = s.logging := rfl
@[simp] theorem State.setGroup_overflow (g : GroupId) (x : BitVec 6) : (s.setGroup g x).overflow = s.overflow := rfl
@[simp] theorem State.setGroup_links (g : GroupId) (x : BitVec 6) : (s.setGroup g x).links = s.links := rfl
@[simp] theorem State.setGroup_strapPins (g : GroupId) (x : BitVec 6) : (s.setGroup g x).strapPins = s.strapPins := rfl
@[simp] theorem State.setGroup_strapAddress (g : GroupId) (x : BitVec 6) : (s.setGroup g x).strapAddress = s.strapAddress := rfl
@[simp] theorem State.setGroup_resetInput (g : GroupId) (x : BitVec 6) : (s.setGroup g x).resetInput = s.resetInput := rfl
@[simp] theorem State.setGroup_uplinkReceiving (g : GroupId) (x : BitVec 6) : (s.setGroup g x).uplinkReceiving = s.uplinkReceiving := rfl
@[simp] theorem State.setGroup_fieldReceiving (g : GroupId) (x : BitVec 6) : (s.setGroup g x).fieldReceiving = s.fieldReceiving := rfl
@[simp] theorem State.setGroup_outbox (g : GroupId) (x : BitVec 6) : (s.setGroup g x).outbox = s.outbox := rfl
@[simp] theorem State.setGroup_seconds (g : GroupId) (x : BitVec 6) : (s.setGroup g x).seconds = s.seconds := rfl
@[simp] theorem State.setGroup_now (g : GroupId) (x : BitVec 6) : (s.setGroup g x).now = s.now := rfl
@[simp] theorem State.setGroup_nextSecond (g : GroupId) (x : BitVec 6) : (s.setGroup g x).nextSecond = s.nextSecond := rfl
@[simp] theorem State.setGroup_pending (g : GroupId) (x : BitVec 6) : (s.setGroup g x).pending = s.pending := rfl

/-! ## setComp -/

@[simp] theorem State.setComp_shaft (c : Compartment) (r : CompartmentRec) : (s.setComp c r).shaft = s.shaft := by cases c <;> rfl
@[simp] theorem State.setComp_landings (c : Compartment) (r : CompartmentRec) : (s.setComp c r).landings = s.landings := by cases c <;> rfl
@[simp] theorem State.setComp_hoists (c : Compartment) (r : CompartmentRec) : (s.setComp c r).hoists = s.hoists := by cases c <;> rfl
@[simp] theorem State.setComp_masses (c : Compartment) (r : CompartmentRec) : (s.setComp c r).masses = s.masses := by cases c <;> rfl
@[simp] theorem State.setComp_groups (c : Compartment) (r : CompartmentRec) : (s.setComp c r).groups = s.groups := by cases c <;> rfl
@[simp] theorem State.setComp_timers (c : Compartment) (r : CompartmentRec) : (s.setComp c r).timers = s.timers := by cases c <;> rfl
@[simp] theorem State.setComp_proofInterval (c : Compartment) (r : CompartmentRec) : (s.setComp c r).proofInterval = s.proofInterval := by cases c <;> rfl
@[simp] theorem State.setComp_degradedCeiling (c : Compartment) (r : CompartmentRec) : (s.setComp c r).degradedCeiling = s.degradedCeiling := by cases c <;> rfl
@[simp] theorem State.setComp_latched (c : Compartment) (r : CompartmentRec) : (s.setComp c r).latched = s.latched := by cases c <;> rfl
@[simp] theorem State.setComp_mask (c : Compartment) (r : CompartmentRec) : (s.setComp c r).mask = s.mask := by cases c <;> rfl
@[simp] theorem State.setComp_attention (c : Compartment) (r : CompartmentRec) : (s.setComp c r).attention = s.attention := by cases c <;> rfl
@[simp] theorem State.setComp_records (c : Compartment) (r : CompartmentRec) : (s.setComp c r).records = s.records := by cases c <;> rfl
@[simp] theorem State.setComp_logging (c : Compartment) (r : CompartmentRec) : (s.setComp c r).logging = s.logging := by cases c <;> rfl
@[simp] theorem State.setComp_overflow (c : Compartment) (r : CompartmentRec) : (s.setComp c r).overflow = s.overflow := by cases c <;> rfl
@[simp] theorem State.setComp_links (c : Compartment) (r : CompartmentRec) : (s.setComp c r).links = s.links := by cases c <;> rfl
@[simp] theorem State.setComp_strapPins (c : Compartment) (r : CompartmentRec) : (s.setComp c r).strapPins = s.strapPins := by cases c <;> rfl
@[simp] theorem State.setComp_strapAddress (c : Compartment) (r : CompartmentRec) : (s.setComp c r).strapAddress = s.strapAddress := by cases c <;> rfl
@[simp] theorem State.setComp_resetInput (c : Compartment) (r : CompartmentRec) : (s.setComp c r).resetInput = s.resetInput := by cases c <;> rfl
@[simp] theorem State.setComp_uplinkReceiving (c : Compartment) (r : CompartmentRec) : (s.setComp c r).uplinkReceiving = s.uplinkReceiving := by cases c <;> rfl
@[simp] theorem State.setComp_fieldReceiving (c : Compartment) (r : CompartmentRec) : (s.setComp c r).fieldReceiving = s.fieldReceiving := by cases c <;> rfl
@[simp] theorem State.setComp_outbox (c : Compartment) (r : CompartmentRec) : (s.setComp c r).outbox = s.outbox := by cases c <;> rfl
@[simp] theorem State.setComp_seconds (c : Compartment) (r : CompartmentRec) : (s.setComp c r).seconds = s.seconds := by cases c <;> rfl
@[simp] theorem State.setComp_now (c : Compartment) (r : CompartmentRec) : (s.setComp c r).now = s.now := by cases c <;> rfl
@[simp] theorem State.setComp_nextSecond (c : Compartment) (r : CompartmentRec) : (s.setComp c r).nextSecond = s.nextSecond := by cases c <;> rfl
@[simp] theorem State.setComp_pending (c : Compartment) (r : CompartmentRec) : (s.setComp c r).pending = s.pending := by cases c <;> rfl

/-! ## modComp -/

@[simp] theorem State.modComp_shaft (c : Compartment) (f : CompartmentRec → CompartmentRec) : (s.modComp c f).shaft = s.shaft := by cases c <;> rfl
@[simp] theorem State.modComp_landings (c : Compartment) (f : CompartmentRec → CompartmentRec) : (s.modComp c f).landings = s.landings := by cases c <;> rfl
@[simp] theorem State.modComp_hoists (c : Compartment) (f : CompartmentRec → CompartmentRec) : (s.modComp c f).hoists = s.hoists := by cases c <;> rfl
@[simp] theorem State.modComp_masses (c : Compartment) (f : CompartmentRec → CompartmentRec) : (s.modComp c f).masses = s.masses := by cases c <;> rfl
@[simp] theorem State.modComp_groups (c : Compartment) (f : CompartmentRec → CompartmentRec) : (s.modComp c f).groups = s.groups := by cases c <;> rfl
@[simp] theorem State.modComp_timers (c : Compartment) (f : CompartmentRec → CompartmentRec) : (s.modComp c f).timers = s.timers := by cases c <;> rfl
@[simp] theorem State.modComp_proofInterval (c : Compartment) (f : CompartmentRec → CompartmentRec) : (s.modComp c f).proofInterval = s.proofInterval := by cases c <;> rfl
@[simp] theorem State.modComp_degradedCeiling (c : Compartment) (f : CompartmentRec → CompartmentRec) : (s.modComp c f).degradedCeiling = s.degradedCeiling := by cases c <;> rfl
@[simp] theorem State.modComp_latched (c : Compartment) (f : CompartmentRec → CompartmentRec) : (s.modComp c f).latched = s.latched := by cases c <;> rfl
@[simp] theorem State.modComp_mask (c : Compartment) (f : CompartmentRec → CompartmentRec) : (s.modComp c f).mask = s.mask := by cases c <;> rfl
@[simp] theorem State.modComp_attention (c : Compartment) (f : CompartmentRec → CompartmentRec) : (s.modComp c f).attention = s.attention := by cases c <;> rfl
@[simp] theorem State.modComp_records (c : Compartment) (f : CompartmentRec → CompartmentRec) : (s.modComp c f).records = s.records := by cases c <;> rfl
@[simp] theorem State.modComp_logging (c : Compartment) (f : CompartmentRec → CompartmentRec) : (s.modComp c f).logging = s.logging := by cases c <;> rfl
@[simp] theorem State.modComp_overflow (c : Compartment) (f : CompartmentRec → CompartmentRec) : (s.modComp c f).overflow = s.overflow := by cases c <;> rfl
@[simp] theorem State.modComp_links (c : Compartment) (f : CompartmentRec → CompartmentRec) : (s.modComp c f).links = s.links := by cases c <;> rfl
@[simp] theorem State.modComp_strapPins (c : Compartment) (f : CompartmentRec → CompartmentRec) : (s.modComp c f).strapPins = s.strapPins := by cases c <;> rfl
@[simp] theorem State.modComp_strapAddress (c : Compartment) (f : CompartmentRec → CompartmentRec) : (s.modComp c f).strapAddress = s.strapAddress := by cases c <;> rfl
@[simp] theorem State.modComp_resetInput (c : Compartment) (f : CompartmentRec → CompartmentRec) : (s.modComp c f).resetInput = s.resetInput := by cases c <;> rfl
@[simp] theorem State.modComp_uplinkReceiving (c : Compartment) (f : CompartmentRec → CompartmentRec) : (s.modComp c f).uplinkReceiving = s.uplinkReceiving := by cases c <;> rfl
@[simp] theorem State.modComp_fieldReceiving (c : Compartment) (f : CompartmentRec → CompartmentRec) : (s.modComp c f).fieldReceiving = s.fieldReceiving := by cases c <;> rfl
@[simp] theorem State.modComp_outbox (c : Compartment) (f : CompartmentRec → CompartmentRec) : (s.modComp c f).outbox = s.outbox := by cases c <;> rfl
@[simp] theorem State.modComp_seconds (c : Compartment) (f : CompartmentRec → CompartmentRec) : (s.modComp c f).seconds = s.seconds := by cases c <;> rfl
@[simp] theorem State.modComp_now (c : Compartment) (f : CompartmentRec → CompartmentRec) : (s.modComp c f).now = s.now := by cases c <;> rfl
@[simp] theorem State.modComp_nextSecond (c : Compartment) (f : CompartmentRec → CompartmentRec) : (s.modComp c f).nextSecond = s.nextSecond := by cases c <;> rfl
@[simp] theorem State.modComp_pending (c : Compartment) (f : CompartmentRec → CompartmentRec) : (s.modComp c f).pending = s.pending := by cases c <;> rfl

/-! ## setLatched -/

@[simp] theorem State.setLatched_shaft (x : BitVec 13) : (s.setLatched x).shaft = s.shaft := rfl
@[simp] theorem State.setLatched_compA (x : BitVec 13) : (s.setLatched x).compA = s.compA := rfl
@[simp] theorem State.setLatched_compB (x : BitVec 13) : (s.setLatched x).compB = s.compB := rfl
@[simp] theorem State.setLatched_landings (x : BitVec 13) : (s.setLatched x).landings = s.landings := rfl
@[simp] theorem State.setLatched_hoists (x : BitVec 13) : (s.setLatched x).hoists = s.hoists := rfl
@[simp] theorem State.setLatched_masses (x : BitVec 13) : (s.setLatched x).masses = s.masses := rfl
@[simp] theorem State.setLatched_groups (x : BitVec 13) : (s.setLatched x).groups = s.groups := rfl
@[simp] theorem State.setLatched_timers (x : BitVec 13) : (s.setLatched x).timers = s.timers := rfl
@[simp] theorem State.setLatched_proofInterval (x : BitVec 13) : (s.setLatched x).proofInterval = s.proofInterval := rfl
@[simp] theorem State.setLatched_degradedCeiling (x : BitVec 13) : (s.setLatched x).degradedCeiling = s.degradedCeiling := rfl
@[simp] theorem State.setLatched_mask (x : BitVec 13) : (s.setLatched x).mask = s.mask := rfl
@[simp] theorem State.setLatched_records (x : BitVec 13) : (s.setLatched x).records = s.records := rfl
@[simp] theorem State.setLatched_logging (x : BitVec 13) : (s.setLatched x).logging = s.logging := rfl
@[simp] theorem State.setLatched_overflow (x : BitVec 13) : (s.setLatched x).overflow = s.overflow := rfl
@[simp] theorem State.setLatched_links (x : BitVec 13) : (s.setLatched x).links = s.links := rfl
@[simp] theorem State.setLatched_strapPins (x : BitVec 13) : (s.setLatched x).strapPins = s.strapPins := rfl
@[simp] theorem State.setLatched_strapAddress (x : BitVec 13) : (s.setLatched x).strapAddress = s.strapAddress := rfl
@[simp] theorem State.setLatched_resetInput (x : BitVec 13) : (s.setLatched x).resetInput = s.resetInput := rfl
@[simp] theorem State.setLatched_uplinkReceiving (x : BitVec 13) : (s.setLatched x).uplinkReceiving = s.uplinkReceiving := rfl
@[simp] theorem State.setLatched_fieldReceiving (x : BitVec 13) : (s.setLatched x).fieldReceiving = s.fieldReceiving := rfl
@[simp] theorem State.setLatched_outbox (x : BitVec 13) : (s.setLatched x).outbox = s.outbox := rfl
@[simp] theorem State.setLatched_seconds (x : BitVec 13) : (s.setLatched x).seconds = s.seconds := rfl
@[simp] theorem State.setLatched_now (x : BitVec 13) : (s.setLatched x).now = s.now := rfl
@[simp] theorem State.setLatched_nextSecond (x : BitVec 13) : (s.setLatched x).nextSecond = s.nextSecond := rfl
@[simp] theorem State.setLatched_pending (x : BitVec 13) : (s.setLatched x).pending = s.pending := rfl

/-! ## setMask -/

@[simp] theorem State.setMask_shaft (x : BitVec 13) : (s.setMask x).shaft = s.shaft := rfl
@[simp] theorem State.setMask_compA (x : BitVec 13) : (s.setMask x).compA = s.compA := rfl
@[simp] theorem State.setMask_compB (x : BitVec 13) : (s.setMask x).compB = s.compB := rfl
@[simp] theorem State.setMask_landings (x : BitVec 13) : (s.setMask x).landings = s.landings := rfl
@[simp] theorem State.setMask_hoists (x : BitVec 13) : (s.setMask x).hoists = s.hoists := rfl
@[simp] theorem State.setMask_masses (x : BitVec 13) : (s.setMask x).masses = s.masses := rfl
@[simp] theorem State.setMask_groups (x : BitVec 13) : (s.setMask x).groups = s.groups := rfl
@[simp] theorem State.setMask_timers (x : BitVec 13) : (s.setMask x).timers = s.timers := rfl
@[simp] theorem State.setMask_proofInterval (x : BitVec 13) : (s.setMask x).proofInterval = s.proofInterval := rfl
@[simp] theorem State.setMask_degradedCeiling (x : BitVec 13) : (s.setMask x).degradedCeiling = s.degradedCeiling := rfl
@[simp] theorem State.setMask_latched (x : BitVec 13) : (s.setMask x).latched = s.latched := rfl
@[simp] theorem State.setMask_records (x : BitVec 13) : (s.setMask x).records = s.records := rfl
@[simp] theorem State.setMask_logging (x : BitVec 13) : (s.setMask x).logging = s.logging := rfl
@[simp] theorem State.setMask_overflow (x : BitVec 13) : (s.setMask x).overflow = s.overflow := rfl
@[simp] theorem State.setMask_links (x : BitVec 13) : (s.setMask x).links = s.links := rfl
@[simp] theorem State.setMask_strapPins (x : BitVec 13) : (s.setMask x).strapPins = s.strapPins := rfl
@[simp] theorem State.setMask_strapAddress (x : BitVec 13) : (s.setMask x).strapAddress = s.strapAddress := rfl
@[simp] theorem State.setMask_resetInput (x : BitVec 13) : (s.setMask x).resetInput = s.resetInput := rfl
@[simp] theorem State.setMask_uplinkReceiving (x : BitVec 13) : (s.setMask x).uplinkReceiving = s.uplinkReceiving := rfl
@[simp] theorem State.setMask_fieldReceiving (x : BitVec 13) : (s.setMask x).fieldReceiving = s.fieldReceiving := rfl
@[simp] theorem State.setMask_outbox (x : BitVec 13) : (s.setMask x).outbox = s.outbox := rfl
@[simp] theorem State.setMask_seconds (x : BitVec 13) : (s.setMask x).seconds = s.seconds := rfl
@[simp] theorem State.setMask_now (x : BitVec 13) : (s.setMask x).now = s.now := rfl
@[simp] theorem State.setMask_nextSecond (x : BitVec 13) : (s.setMask x).nextSecond = s.nextSecond := rfl
@[simp] theorem State.setMask_pending (x : BitVec 13) : (s.setMask x).pending = s.pending := rfl

/-! ## latch -/

@[simp] theorem State.latch_shaft (c : Category) : (s.latch c).shaft = s.shaft := rfl
@[simp] theorem State.latch_compA (c : Category) : (s.latch c).compA = s.compA := rfl
@[simp] theorem State.latch_compB (c : Category) : (s.latch c).compB = s.compB := rfl
@[simp] theorem State.latch_landings (c : Category) : (s.latch c).landings = s.landings := rfl
@[simp] theorem State.latch_hoists (c : Category) : (s.latch c).hoists = s.hoists := rfl
@[simp] theorem State.latch_masses (c : Category) : (s.latch c).masses = s.masses := rfl
@[simp] theorem State.latch_groups (c : Category) : (s.latch c).groups = s.groups := rfl
@[simp] theorem State.latch_timers (c : Category) : (s.latch c).timers = s.timers := rfl
@[simp] theorem State.latch_proofInterval (c : Category) : (s.latch c).proofInterval = s.proofInterval := rfl
@[simp] theorem State.latch_degradedCeiling (c : Category) : (s.latch c).degradedCeiling = s.degradedCeiling := rfl
@[simp] theorem State.latch_mask (c : Category) : (s.latch c).mask = s.mask := rfl
@[simp] theorem State.latch_records (c : Category) : (s.latch c).records = s.records := rfl
@[simp] theorem State.latch_logging (c : Category) : (s.latch c).logging = s.logging := rfl
@[simp] theorem State.latch_overflow (c : Category) : (s.latch c).overflow = s.overflow := rfl
@[simp] theorem State.latch_links (c : Category) : (s.latch c).links = s.links := rfl
@[simp] theorem State.latch_strapPins (c : Category) : (s.latch c).strapPins = s.strapPins := rfl
@[simp] theorem State.latch_strapAddress (c : Category) : (s.latch c).strapAddress = s.strapAddress := rfl
@[simp] theorem State.latch_resetInput (c : Category) : (s.latch c).resetInput = s.resetInput := rfl
@[simp] theorem State.latch_uplinkReceiving (c : Category) : (s.latch c).uplinkReceiving = s.uplinkReceiving := rfl
@[simp] theorem State.latch_fieldReceiving (c : Category) : (s.latch c).fieldReceiving = s.fieldReceiving := rfl
@[simp] theorem State.latch_outbox (c : Category) : (s.latch c).outbox = s.outbox := rfl
@[simp] theorem State.latch_seconds (c : Category) : (s.latch c).seconds = s.seconds := rfl
@[simp] theorem State.latch_now (c : Category) : (s.latch c).now = s.now := rfl
@[simp] theorem State.latch_nextSecond (c : Category) : (s.latch c).nextSecond = s.nextSecond := rfl
@[simp] theorem State.latch_pending (c : Category) : (s.latch c).pending = s.pending := rfl

/-! ## indicate -/

@[simp] theorem State.indicate_shaft (e : LinkError) : (s.indicate e).shaft = s.shaft := rfl
@[simp] theorem State.indicate_compA (e : LinkError) : (s.indicate e).compA = s.compA := rfl
@[simp] theorem State.indicate_compB (e : LinkError) : (s.indicate e).compB = s.compB := rfl
@[simp] theorem State.indicate_landings (e : LinkError) : (s.indicate e).landings = s.landings := rfl
@[simp] theorem State.indicate_hoists (e : LinkError) : (s.indicate e).hoists = s.hoists := rfl
@[simp] theorem State.indicate_masses (e : LinkError) : (s.indicate e).masses = s.masses := rfl
@[simp] theorem State.indicate_groups (e : LinkError) : (s.indicate e).groups = s.groups := rfl
@[simp] theorem State.indicate_timers (e : LinkError) : (s.indicate e).timers = s.timers := rfl
@[simp] theorem State.indicate_proofInterval (e : LinkError) : (s.indicate e).proofInterval = s.proofInterval := rfl
@[simp] theorem State.indicate_degradedCeiling (e : LinkError) : (s.indicate e).degradedCeiling = s.degradedCeiling := rfl
@[simp] theorem State.indicate_mask (e : LinkError) : (s.indicate e).mask = s.mask := rfl
@[simp] theorem State.indicate_records (e : LinkError) : (s.indicate e).records = s.records := rfl
@[simp] theorem State.indicate_logging (e : LinkError) : (s.indicate e).logging = s.logging := rfl
@[simp] theorem State.indicate_overflow (e : LinkError) : (s.indicate e).overflow = s.overflow := rfl
@[simp] theorem State.indicate_strapPins (e : LinkError) : (s.indicate e).strapPins = s.strapPins := rfl
@[simp] theorem State.indicate_strapAddress (e : LinkError) : (s.indicate e).strapAddress = s.strapAddress := rfl
@[simp] theorem State.indicate_resetInput (e : LinkError) : (s.indicate e).resetInput = s.resetInput := rfl
@[simp] theorem State.indicate_uplinkReceiving (e : LinkError) : (s.indicate e).uplinkReceiving = s.uplinkReceiving := rfl
@[simp] theorem State.indicate_fieldReceiving (e : LinkError) : (s.indicate e).fieldReceiving = s.fieldReceiving := rfl
@[simp] theorem State.indicate_outbox (e : LinkError) : (s.indicate e).outbox = s.outbox := rfl
@[simp] theorem State.indicate_seconds (e : LinkError) : (s.indicate e).seconds = s.seconds := rfl
@[simp] theorem State.indicate_now (e : LinkError) : (s.indicate e).now = s.now := rfl
@[simp] theorem State.indicate_nextSecond (e : LinkError) : (s.indicate e).nextSecond = s.nextSecond := rfl
@[simp] theorem State.indicate_pending (e : LinkError) : (s.indicate e).pending = s.pending := rfl

/-! ## give -/

@[simp] theorem State.give_shaft (p : Port) (f : Frame) : (s.give p f).shaft = s.shaft := rfl
@[simp] theorem State.give_compA (p : Port) (f : Frame) : (s.give p f).compA = s.compA := rfl
@[simp] theorem State.give_compB (p : Port) (f : Frame) : (s.give p f).compB = s.compB := rfl
@[simp] theorem State.give_landings (p : Port) (f : Frame) : (s.give p f).landings = s.landings := rfl
@[simp] theorem State.give_hoists (p : Port) (f : Frame) : (s.give p f).hoists = s.hoists := rfl
@[simp] theorem State.give_masses (p : Port) (f : Frame) : (s.give p f).masses = s.masses := rfl
@[simp] theorem State.give_groups (p : Port) (f : Frame) : (s.give p f).groups = s.groups := rfl
@[simp] theorem State.give_timers (p : Port) (f : Frame) : (s.give p f).timers = s.timers := rfl
@[simp] theorem State.give_proofInterval (p : Port) (f : Frame) : (s.give p f).proofInterval = s.proofInterval := rfl
@[simp] theorem State.give_degradedCeiling (p : Port) (f : Frame) : (s.give p f).degradedCeiling = s.degradedCeiling := rfl
@[simp] theorem State.give_latched (p : Port) (f : Frame) : (s.give p f).latched = s.latched := rfl
@[simp] theorem State.give_mask (p : Port) (f : Frame) : (s.give p f).mask = s.mask := rfl
@[simp] theorem State.give_attention (p : Port) (f : Frame) : (s.give p f).attention = s.attention := rfl
@[simp] theorem State.give_records (p : Port) (f : Frame) : (s.give p f).records = s.records := rfl
@[simp] theorem State.give_logging (p : Port) (f : Frame) : (s.give p f).logging = s.logging := rfl
@[simp] theorem State.give_overflow (p : Port) (f : Frame) : (s.give p f).overflow = s.overflow := rfl
@[simp] theorem State.give_links (p : Port) (f : Frame) : (s.give p f).links = s.links := rfl
@[simp] theorem State.give_strapPins (p : Port) (f : Frame) : (s.give p f).strapPins = s.strapPins := rfl
@[simp] theorem State.give_strapAddress (p : Port) (f : Frame) : (s.give p f).strapAddress = s.strapAddress := rfl
@[simp] theorem State.give_resetInput (p : Port) (f : Frame) : (s.give p f).resetInput = s.resetInput := rfl
@[simp] theorem State.give_uplinkReceiving (p : Port) (f : Frame) : (s.give p f).uplinkReceiving = s.uplinkReceiving := rfl
@[simp] theorem State.give_fieldReceiving (p : Port) (f : Frame) : (s.give p f).fieldReceiving = s.fieldReceiving := rfl
@[simp] theorem State.give_seconds (p : Port) (f : Frame) : (s.give p f).seconds = s.seconds := rfl
@[simp] theorem State.give_now (p : Port) (f : Frame) : (s.give p f).now = s.now := rfl
@[simp] theorem State.give_nextSecond (p : Port) (f : Frame) : (s.give p f).nextSecond = s.nextSecond := rfl
@[simp] theorem State.give_pending (p : Port) (f : Frame) : (s.give p f).pending = s.pending := rfl

/-! ## received -/

@[simp] theorem State.received_shaft (p : Port) : (s.received p).shaft = s.shaft := by cases p <;> rfl
@[simp] theorem State.received_compA (p : Port) : (s.received p).compA = s.compA := by cases p <;> rfl
@[simp] theorem State.received_compB (p : Port) : (s.received p).compB = s.compB := by cases p <;> rfl
@[simp] theorem State.received_landings (p : Port) : (s.received p).landings = s.landings := by cases p <;> rfl
@[simp] theorem State.received_hoists (p : Port) : (s.received p).hoists = s.hoists := by cases p <;> rfl
@[simp] theorem State.received_masses (p : Port) : (s.received p).masses = s.masses := by cases p <;> rfl
@[simp] theorem State.received_groups (p : Port) : (s.received p).groups = s.groups := by cases p <;> rfl
@[simp] theorem State.received_timers (p : Port) : (s.received p).timers = s.timers := by cases p <;> rfl
@[simp] theorem State.received_proofInterval (p : Port) : (s.received p).proofInterval = s.proofInterval := by cases p <;> rfl
@[simp] theorem State.received_degradedCeiling (p : Port) : (s.received p).degradedCeiling = s.degradedCeiling := by cases p <;> rfl
@[simp] theorem State.received_latched (p : Port) : (s.received p).latched = s.latched := by cases p <;> rfl
@[simp] theorem State.received_mask (p : Port) : (s.received p).mask = s.mask := by cases p <;> rfl
@[simp] theorem State.received_attention (p : Port) : (s.received p).attention = s.attention := by cases p <;> rfl
@[simp] theorem State.received_records (p : Port) : (s.received p).records = s.records := by cases p <;> rfl
@[simp] theorem State.received_logging (p : Port) : (s.received p).logging = s.logging := by cases p <;> rfl
@[simp] theorem State.received_overflow (p : Port) : (s.received p).overflow = s.overflow := by cases p <;> rfl
@[simp] theorem State.received_links (p : Port) : (s.received p).links = s.links := by cases p <;> rfl
@[simp] theorem State.received_strapPins (p : Port) : (s.received p).strapPins = s.strapPins := by cases p <;> rfl
@[simp] theorem State.received_strapAddress (p : Port) : (s.received p).strapAddress = s.strapAddress := by cases p <;> rfl
@[simp] theorem State.received_resetInput (p : Port) : (s.received p).resetInput = s.resetInput := by cases p <;> rfl
@[simp] theorem State.received_outbox (p : Port) : (s.received p).outbox = s.outbox := by cases p <;> rfl
@[simp] theorem State.received_seconds (p : Port) : (s.received p).seconds = s.seconds := by cases p <;> rfl
@[simp] theorem State.received_now (p : Port) : (s.received p).now = s.now := by cases p <;> rfl
@[simp] theorem State.received_nextSecond (p : Port) : (s.received p).nextSecond = s.nextSecond := by cases p <;> rfl
@[simp] theorem State.received_pending (p : Port) : (s.received p).pending = s.pending := by cases p <;> rfl

/-! ## receiving -/

@[simp] theorem State.receiving_shaft (p : Port) : (s.receiving p).shaft = s.shaft := by cases p <;> rfl
@[simp] theorem State.receiving_compA (p : Port) : (s.receiving p).compA = s.compA := by cases p <;> rfl
@[simp] theorem State.receiving_compB (p : Port) : (s.receiving p).compB = s.compB := by cases p <;> rfl
@[simp] theorem State.receiving_landings (p : Port) : (s.receiving p).landings = s.landings := by cases p <;> rfl
@[simp] theorem State.receiving_hoists (p : Port) : (s.receiving p).hoists = s.hoists := by cases p <;> rfl
@[simp] theorem State.receiving_masses (p : Port) : (s.receiving p).masses = s.masses := by cases p <;> rfl
@[simp] theorem State.receiving_groups (p : Port) : (s.receiving p).groups = s.groups := by cases p <;> rfl
@[simp] theorem State.receiving_timers (p : Port) : (s.receiving p).timers = s.timers := by cases p <;> rfl
@[simp] theorem State.receiving_proofInterval (p : Port) : (s.receiving p).proofInterval = s.proofInterval := by cases p <;> rfl
@[simp] theorem State.receiving_degradedCeiling (p : Port) : (s.receiving p).degradedCeiling = s.degradedCeiling := by cases p <;> rfl
@[simp] theorem State.receiving_latched (p : Port) : (s.receiving p).latched = s.latched := by cases p <;> rfl
@[simp] theorem State.receiving_mask (p : Port) : (s.receiving p).mask = s.mask := by cases p <;> rfl
@[simp] theorem State.receiving_attention (p : Port) : (s.receiving p).attention = s.attention := by cases p <;> rfl
@[simp] theorem State.receiving_records (p : Port) : (s.receiving p).records = s.records := by cases p <;> rfl
@[simp] theorem State.receiving_logging (p : Port) : (s.receiving p).logging = s.logging := by cases p <;> rfl
@[simp] theorem State.receiving_overflow (p : Port) : (s.receiving p).overflow = s.overflow := by cases p <;> rfl
@[simp] theorem State.receiving_links (p : Port) : (s.receiving p).links = s.links := by cases p <;> rfl
@[simp] theorem State.receiving_strapPins (p : Port) : (s.receiving p).strapPins = s.strapPins := by cases p <;> rfl
@[simp] theorem State.receiving_strapAddress (p : Port) : (s.receiving p).strapAddress = s.strapAddress := by cases p <;> rfl
@[simp] theorem State.receiving_resetInput (p : Port) : (s.receiving p).resetInput = s.resetInput := by cases p <;> rfl
@[simp] theorem State.receiving_outbox (p : Port) : (s.receiving p).outbox = s.outbox := by cases p <;> rfl
@[simp] theorem State.receiving_seconds (p : Port) : (s.receiving p).seconds = s.seconds := by cases p <;> rfl
@[simp] theorem State.receiving_now (p : Port) : (s.receiving p).now = s.now := by cases p <;> rfl
@[simp] theorem State.receiving_nextSecond (p : Port) : (s.receiving p).nextSecond = s.nextSecond := by cases p <;> rfl
@[simp] theorem State.receiving_pending (p : Port) : (s.receiving p).pending = s.pending := by cases p <;> rfl

/-! ## setStatus -/

@[simp] theorem State.setStatus_shaft (m : MassId) (x : MassStatus) : (s.setStatus m x).shaft = s.shaft := rfl
@[simp] theorem State.setStatus_compA (m : MassId) (x : MassStatus) : (s.setStatus m x).compA = s.compA := rfl
@[simp] theorem State.setStatus_compB (m : MassId) (x : MassStatus) : (s.setStatus m x).compB = s.compB := rfl
@[simp] theorem State.setStatus_landings (m : MassId) (x : MassStatus) : (s.setStatus m x).landings = s.landings := rfl
@[simp] theorem State.setStatus_hoists (m : MassId) (x : MassStatus) : (s.setStatus m x).hoists = s.hoists := rfl
@[simp] theorem State.setStatus_groups (m : MassId) (x : MassStatus) : (s.setStatus m x).groups = s.groups := rfl
@[simp] theorem State.setStatus_timers (m : MassId) (x : MassStatus) : (s.setStatus m x).timers = s.timers := rfl
@[simp] theorem State.setStatus_proofInterval (m : MassId) (x : MassStatus) : (s.setStatus m x).proofInterval = s.proofInterval := rfl
@[simp] theorem State.setStatus_degradedCeiling (m : MassId) (x : MassStatus) : (s.setStatus m x).degradedCeiling = s.degradedCeiling := rfl
@[simp] theorem State.setStatus_latched (m : MassId) (x : MassStatus) : (s.setStatus m x).latched = s.latched := rfl
@[simp] theorem State.setStatus_mask (m : MassId) (x : MassStatus) : (s.setStatus m x).mask = s.mask := rfl
@[simp] theorem State.setStatus_attention (m : MassId) (x : MassStatus) : (s.setStatus m x).attention = s.attention := rfl
@[simp] theorem State.setStatus_records (m : MassId) (x : MassStatus) : (s.setStatus m x).records = s.records := rfl
@[simp] theorem State.setStatus_logging (m : MassId) (x : MassStatus) : (s.setStatus m x).logging = s.logging := rfl
@[simp] theorem State.setStatus_overflow (m : MassId) (x : MassStatus) : (s.setStatus m x).overflow = s.overflow := rfl
@[simp] theorem State.setStatus_links (m : MassId) (x : MassStatus) : (s.setStatus m x).links = s.links := rfl
@[simp] theorem State.setStatus_strapPins (m : MassId) (x : MassStatus) : (s.setStatus m x).strapPins = s.strapPins := rfl
@[simp] theorem State.setStatus_strapAddress (m : MassId) (x : MassStatus) : (s.setStatus m x).strapAddress = s.strapAddress := rfl
@[simp] theorem State.setStatus_resetInput (m : MassId) (x : MassStatus) : (s.setStatus m x).resetInput = s.resetInput := rfl
@[simp] theorem State.setStatus_uplinkReceiving (m : MassId) (x : MassStatus) : (s.setStatus m x).uplinkReceiving = s.uplinkReceiving := rfl
@[simp] theorem State.setStatus_fieldReceiving (m : MassId) (x : MassStatus) : (s.setStatus m x).fieldReceiving = s.fieldReceiving := rfl
@[simp] theorem State.setStatus_outbox (m : MassId) (x : MassStatus) : (s.setStatus m x).outbox = s.outbox := rfl
@[simp] theorem State.setStatus_seconds (m : MassId) (x : MassStatus) : (s.setStatus m x).seconds = s.seconds := rfl
@[simp] theorem State.setStatus_now (m : MassId) (x : MassStatus) : (s.setStatus m x).now = s.now := rfl
@[simp] theorem State.setStatus_nextSecond (m : MassId) (x : MassStatus) : (s.setStatus m x).nextSecond = s.nextSecond := rfl
@[simp] theorem State.setStatus_pending (m : MassId) (x : MassStatus) : (s.setStatus m x).pending = s.pending := rfl

/-! ## setCarried -/

@[simp] theorem State.setCarried_shaft (h : HoistId) (c : Carried) : (s.setCarried h c).shaft = s.shaft := rfl
@[simp] theorem State.setCarried_compA (h : HoistId) (c : Carried) : (s.setCarried h c).compA = s.compA := rfl
@[simp] theorem State.setCarried_compB (h : HoistId) (c : Carried) : (s.setCarried h c).compB = s.compB := rfl
@[simp] theorem State.setCarried_landings (h : HoistId) (c : Carried) : (s.setCarried h c).landings = s.landings := rfl
@[simp] theorem State.setCarried_masses (h : HoistId) (c : Carried) : (s.setCarried h c).masses = s.masses := rfl
@[simp] theorem State.setCarried_groups (h : HoistId) (c : Carried) : (s.setCarried h c).groups = s.groups := rfl
@[simp] theorem State.setCarried_timers (h : HoistId) (c : Carried) : (s.setCarried h c).timers = s.timers := rfl
@[simp] theorem State.setCarried_proofInterval (h : HoistId) (c : Carried) : (s.setCarried h c).proofInterval = s.proofInterval := rfl
@[simp] theorem State.setCarried_degradedCeiling (h : HoistId) (c : Carried) : (s.setCarried h c).degradedCeiling = s.degradedCeiling := rfl
@[simp] theorem State.setCarried_latched (h : HoistId) (c : Carried) : (s.setCarried h c).latched = s.latched := rfl
@[simp] theorem State.setCarried_mask (h : HoistId) (c : Carried) : (s.setCarried h c).mask = s.mask := rfl
@[simp] theorem State.setCarried_attention (h : HoistId) (c : Carried) : (s.setCarried h c).attention = s.attention := rfl
@[simp] theorem State.setCarried_records (h : HoistId) (c : Carried) : (s.setCarried h c).records = s.records := rfl
@[simp] theorem State.setCarried_logging (h : HoistId) (c : Carried) : (s.setCarried h c).logging = s.logging := rfl
@[simp] theorem State.setCarried_overflow (h : HoistId) (c : Carried) : (s.setCarried h c).overflow = s.overflow := rfl
@[simp] theorem State.setCarried_links (h : HoistId) (c : Carried) : (s.setCarried h c).links = s.links := rfl
@[simp] theorem State.setCarried_strapPins (h : HoistId) (c : Carried) : (s.setCarried h c).strapPins = s.strapPins := rfl
@[simp] theorem State.setCarried_strapAddress (h : HoistId) (c : Carried) : (s.setCarried h c).strapAddress = s.strapAddress := rfl
@[simp] theorem State.setCarried_resetInput (h : HoistId) (c : Carried) : (s.setCarried h c).resetInput = s.resetInput := rfl
@[simp] theorem State.setCarried_uplinkReceiving (h : HoistId) (c : Carried) : (s.setCarried h c).uplinkReceiving = s.uplinkReceiving := rfl
@[simp] theorem State.setCarried_fieldReceiving (h : HoistId) (c : Carried) : (s.setCarried h c).fieldReceiving = s.fieldReceiving := rfl
@[simp] theorem State.setCarried_outbox (h : HoistId) (c : Carried) : (s.setCarried h c).outbox = s.outbox := rfl
@[simp] theorem State.setCarried_seconds (h : HoistId) (c : Carried) : (s.setCarried h c).seconds = s.seconds := rfl
@[simp] theorem State.setCarried_now (h : HoistId) (c : Carried) : (s.setCarried h c).now = s.now := rfl
@[simp] theorem State.setCarried_nextSecond (h : HoistId) (c : Carried) : (s.setCarried h c).nextSecond = s.nextSecond := rfl
@[simp] theorem State.setCarried_pending (h : HoistId) (c : Carried) : (s.setCarried h c).pending = s.pending := rfl

/-! ## setWeighPending -/

@[simp] theorem State.setWeighPending_shaft (h : HoistId) (b : Bool) : (s.setWeighPending h b).shaft = s.shaft := rfl
@[simp] theorem State.setWeighPending_compA (h : HoistId) (b : Bool) : (s.setWeighPending h b).compA = s.compA := rfl
@[simp] theorem State.setWeighPending_compB (h : HoistId) (b : Bool) : (s.setWeighPending h b).compB = s.compB := rfl
@[simp] theorem State.setWeighPending_landings (h : HoistId) (b : Bool) : (s.setWeighPending h b).landings = s.landings := rfl
@[simp] theorem State.setWeighPending_masses (h : HoistId) (b : Bool) : (s.setWeighPending h b).masses = s.masses := rfl
@[simp] theorem State.setWeighPending_groups (h : HoistId) (b : Bool) : (s.setWeighPending h b).groups = s.groups := rfl
@[simp] theorem State.setWeighPending_timers (h : HoistId) (b : Bool) : (s.setWeighPending h b).timers = s.timers := rfl
@[simp] theorem State.setWeighPending_proofInterval (h : HoistId) (b : Bool) : (s.setWeighPending h b).proofInterval = s.proofInterval := rfl
@[simp] theorem State.setWeighPending_degradedCeiling (h : HoistId) (b : Bool) : (s.setWeighPending h b).degradedCeiling = s.degradedCeiling := rfl
@[simp] theorem State.setWeighPending_latched (h : HoistId) (b : Bool) : (s.setWeighPending h b).latched = s.latched := rfl
@[simp] theorem State.setWeighPending_mask (h : HoistId) (b : Bool) : (s.setWeighPending h b).mask = s.mask := rfl
@[simp] theorem State.setWeighPending_attention (h : HoistId) (b : Bool) : (s.setWeighPending h b).attention = s.attention := rfl
@[simp] theorem State.setWeighPending_records (h : HoistId) (b : Bool) : (s.setWeighPending h b).records = s.records := rfl
@[simp] theorem State.setWeighPending_logging (h : HoistId) (b : Bool) : (s.setWeighPending h b).logging = s.logging := rfl
@[simp] theorem State.setWeighPending_overflow (h : HoistId) (b : Bool) : (s.setWeighPending h b).overflow = s.overflow := rfl
@[simp] theorem State.setWeighPending_links (h : HoistId) (b : Bool) : (s.setWeighPending h b).links = s.links := rfl
@[simp] theorem State.setWeighPending_strapPins (h : HoistId) (b : Bool) : (s.setWeighPending h b).strapPins = s.strapPins := rfl
@[simp] theorem State.setWeighPending_strapAddress (h : HoistId) (b : Bool) : (s.setWeighPending h b).strapAddress = s.strapAddress := rfl
@[simp] theorem State.setWeighPending_resetInput (h : HoistId) (b : Bool) : (s.setWeighPending h b).resetInput = s.resetInput := rfl
@[simp] theorem State.setWeighPending_uplinkReceiving (h : HoistId) (b : Bool) : (s.setWeighPending h b).uplinkReceiving = s.uplinkReceiving := rfl
@[simp] theorem State.setWeighPending_fieldReceiving (h : HoistId) (b : Bool) : (s.setWeighPending h b).fieldReceiving = s.fieldReceiving := rfl
@[simp] theorem State.setWeighPending_outbox (h : HoistId) (b : Bool) : (s.setWeighPending h b).outbox = s.outbox := rfl
@[simp] theorem State.setWeighPending_seconds (h : HoistId) (b : Bool) : (s.setWeighPending h b).seconds = s.seconds := rfl
@[simp] theorem State.setWeighPending_now (h : HoistId) (b : Bool) : (s.setWeighPending h b).now = s.now := rfl
@[simp] theorem State.setWeighPending_nextSecond (h : HoistId) (b : Bool) : (s.setWeighPending h b).nextSecond = s.nextSecond := rfl
@[simp] theorem State.setWeighPending_pending (h : HoistId) (b : Bool) : (s.setWeighPending h b).pending = s.pending := rfl

/-! ## recompute -/

@[simp] theorem State.recompute_shaft (h : HoistId) : (s.recompute h).shaft = s.shaft := rfl
@[simp] theorem State.recompute_compA (h : HoistId) : (s.recompute h).compA = s.compA := rfl
@[simp] theorem State.recompute_compB (h : HoistId) : (s.recompute h).compB = s.compB := rfl
@[simp] theorem State.recompute_landings (h : HoistId) : (s.recompute h).landings = s.landings := rfl
@[simp] theorem State.recompute_masses (h : HoistId) : (s.recompute h).masses = s.masses := rfl
@[simp] theorem State.recompute_groups (h : HoistId) : (s.recompute h).groups = s.groups := rfl
@[simp] theorem State.recompute_timers (h : HoistId) : (s.recompute h).timers = s.timers := rfl
@[simp] theorem State.recompute_proofInterval (h : HoistId) : (s.recompute h).proofInterval = s.proofInterval := rfl
@[simp] theorem State.recompute_degradedCeiling (h : HoistId) : (s.recompute h).degradedCeiling = s.degradedCeiling := rfl
@[simp] theorem State.recompute_latched (h : HoistId) : (s.recompute h).latched = s.latched := rfl
@[simp] theorem State.recompute_mask (h : HoistId) : (s.recompute h).mask = s.mask := rfl
@[simp] theorem State.recompute_attention (h : HoistId) : (s.recompute h).attention = s.attention := rfl
@[simp] theorem State.recompute_records (h : HoistId) : (s.recompute h).records = s.records := rfl
@[simp] theorem State.recompute_logging (h : HoistId) : (s.recompute h).logging = s.logging := rfl
@[simp] theorem State.recompute_overflow (h : HoistId) : (s.recompute h).overflow = s.overflow := rfl
@[simp] theorem State.recompute_links (h : HoistId) : (s.recompute h).links = s.links := rfl
@[simp] theorem State.recompute_strapPins (h : HoistId) : (s.recompute h).strapPins = s.strapPins := rfl
@[simp] theorem State.recompute_strapAddress (h : HoistId) : (s.recompute h).strapAddress = s.strapAddress := rfl
@[simp] theorem State.recompute_resetInput (h : HoistId) : (s.recompute h).resetInput = s.resetInput := rfl
@[simp] theorem State.recompute_uplinkReceiving (h : HoistId) : (s.recompute h).uplinkReceiving = s.uplinkReceiving := rfl
@[simp] theorem State.recompute_fieldReceiving (h : HoistId) : (s.recompute h).fieldReceiving = s.fieldReceiving := rfl
@[simp] theorem State.recompute_outbox (h : HoistId) : (s.recompute h).outbox = s.outbox := rfl
@[simp] theorem State.recompute_seconds (h : HoistId) : (s.recompute h).seconds = s.seconds := rfl
@[simp] theorem State.recompute_now (h : HoistId) : (s.recompute h).now = s.now := rfl
@[simp] theorem State.recompute_nextSecond (h : HoistId) : (s.recompute h).nextSecond = s.nextSecond := rfl
@[simp] theorem State.recompute_pending (h : HoistId) : (s.recompute h).pending = s.pending := rfl

/-! ## enter -/

@[simp] theorem State.enter_shaft (h : HoistId) (x : HoistState) : (s.enter h x).shaft = s.shaft := rfl
@[simp] theorem State.enter_compA (h : HoistId) (x : HoistState) : (s.enter h x).compA = s.compA := rfl
@[simp] theorem State.enter_compB (h : HoistId) (x : HoistState) : (s.enter h x).compB = s.compB := rfl
@[simp] theorem State.enter_landings (h : HoistId) (x : HoistState) : (s.enter h x).landings = s.landings := rfl
@[simp] theorem State.enter_masses (h : HoistId) (x : HoistState) : (s.enter h x).masses = s.masses := rfl
@[simp] theorem State.enter_groups (h : HoistId) (x : HoistState) : (s.enter h x).groups = s.groups := rfl
@[simp] theorem State.enter_timers (h : HoistId) (x : HoistState) : (s.enter h x).timers = s.timers := rfl
@[simp] theorem State.enter_proofInterval (h : HoistId) (x : HoistState) : (s.enter h x).proofInterval = s.proofInterval := rfl
@[simp] theorem State.enter_degradedCeiling (h : HoistId) (x : HoistState) : (s.enter h x).degradedCeiling = s.degradedCeiling := rfl
@[simp] theorem State.enter_latched (h : HoistId) (x : HoistState) : (s.enter h x).latched = s.latched := rfl
@[simp] theorem State.enter_mask (h : HoistId) (x : HoistState) : (s.enter h x).mask = s.mask := rfl
@[simp] theorem State.enter_attention (h : HoistId) (x : HoistState) : (s.enter h x).attention = s.attention := rfl
@[simp] theorem State.enter_records (h : HoistId) (x : HoistState) : (s.enter h x).records = s.records := rfl
@[simp] theorem State.enter_logging (h : HoistId) (x : HoistState) : (s.enter h x).logging = s.logging := rfl
@[simp] theorem State.enter_overflow (h : HoistId) (x : HoistState) : (s.enter h x).overflow = s.overflow := rfl
@[simp] theorem State.enter_links (h : HoistId) (x : HoistState) : (s.enter h x).links = s.links := rfl
@[simp] theorem State.enter_strapPins (h : HoistId) (x : HoistState) : (s.enter h x).strapPins = s.strapPins := rfl
@[simp] theorem State.enter_strapAddress (h : HoistId) (x : HoistState) : (s.enter h x).strapAddress = s.strapAddress := rfl
@[simp] theorem State.enter_resetInput (h : HoistId) (x : HoistState) : (s.enter h x).resetInput = s.resetInput := rfl
@[simp] theorem State.enter_uplinkReceiving (h : HoistId) (x : HoistState) : (s.enter h x).uplinkReceiving = s.uplinkReceiving := rfl
@[simp] theorem State.enter_fieldReceiving (h : HoistId) (x : HoistState) : (s.enter h x).fieldReceiving = s.fieldReceiving := rfl
@[simp] theorem State.enter_outbox (h : HoistId) (x : HoistState) : (s.enter h x).outbox = s.outbox := rfl
@[simp] theorem State.enter_seconds (h : HoistId) (x : HoistState) : (s.enter h x).seconds = s.seconds := rfl
@[simp] theorem State.enter_now (h : HoistId) (x : HoistState) : (s.enter h x).now = s.now := rfl
@[simp] theorem State.enter_nextSecond (h : HoistId) (x : HoistState) : (s.enter h x).nextSecond = s.nextSecond := rfl
@[simp] theorem State.enter_pending (h : HoistId) (x : HoistState) : (s.enter h x).pending = s.pending := rfl

/-! ## clearExtent -/

@[simp] theorem State.clearExtent_shaft (h : HoistId) : (s.clearExtent h).shaft = s.shaft := rfl
@[simp] theorem State.clearExtent_compA (h : HoistId) : (s.clearExtent h).compA = s.compA := rfl
@[simp] theorem State.clearExtent_compB (h : HoistId) : (s.clearExtent h).compB = s.compB := rfl
@[simp] theorem State.clearExtent_landings (h : HoistId) : (s.clearExtent h).landings = s.landings := rfl
@[simp] theorem State.clearExtent_masses (h : HoistId) : (s.clearExtent h).masses = s.masses := rfl
@[simp] theorem State.clearExtent_groups (h : HoistId) : (s.clearExtent h).groups = s.groups := rfl
@[simp] theorem State.clearExtent_timers (h : HoistId) : (s.clearExtent h).timers = s.timers := rfl
@[simp] theorem State.clearExtent_proofInterval (h : HoistId) : (s.clearExtent h).proofInterval = s.proofInterval := rfl
@[simp] theorem State.clearExtent_degradedCeiling (h : HoistId) : (s.clearExtent h).degradedCeiling = s.degradedCeiling := rfl
@[simp] theorem State.clearExtent_latched (h : HoistId) : (s.clearExtent h).latched = s.latched := rfl
@[simp] theorem State.clearExtent_mask (h : HoistId) : (s.clearExtent h).mask = s.mask := rfl
@[simp] theorem State.clearExtent_attention (h : HoistId) : (s.clearExtent h).attention = s.attention := rfl
@[simp] theorem State.clearExtent_records (h : HoistId) : (s.clearExtent h).records = s.records := rfl
@[simp] theorem State.clearExtent_logging (h : HoistId) : (s.clearExtent h).logging = s.logging := rfl
@[simp] theorem State.clearExtent_overflow (h : HoistId) : (s.clearExtent h).overflow = s.overflow := rfl
@[simp] theorem State.clearExtent_links (h : HoistId) : (s.clearExtent h).links = s.links := rfl
@[simp] theorem State.clearExtent_strapPins (h : HoistId) : (s.clearExtent h).strapPins = s.strapPins := rfl
@[simp] theorem State.clearExtent_strapAddress (h : HoistId) : (s.clearExtent h).strapAddress = s.strapAddress := rfl
@[simp] theorem State.clearExtent_resetInput (h : HoistId) : (s.clearExtent h).resetInput = s.resetInput := rfl
@[simp] theorem State.clearExtent_uplinkReceiving (h : HoistId) : (s.clearExtent h).uplinkReceiving = s.uplinkReceiving := rfl
@[simp] theorem State.clearExtent_fieldReceiving (h : HoistId) : (s.clearExtent h).fieldReceiving = s.fieldReceiving := rfl
@[simp] theorem State.clearExtent_outbox (h : HoistId) : (s.clearExtent h).outbox = s.outbox := rfl
@[simp] theorem State.clearExtent_seconds (h : HoistId) : (s.clearExtent h).seconds = s.seconds := rfl
@[simp] theorem State.clearExtent_now (h : HoistId) : (s.clearExtent h).now = s.now := rfl
@[simp] theorem State.clearExtent_nextSecond (h : HoistId) : (s.clearExtent h).nextSecond = s.nextSecond := rfl
@[simp] theorem State.clearExtent_pending (h : HoistId) : (s.clearExtent h).pending = s.pending := rfl

/-! ## markClosed -/

@[simp] theorem State.markClosed_shaft (h : HoistId) : (s.markClosed h).shaft = s.shaft := rfl
@[simp] theorem State.markClosed_compA (h : HoistId) : (s.markClosed h).compA = s.compA := rfl
@[simp] theorem State.markClosed_compB (h : HoistId) : (s.markClosed h).compB = s.compB := rfl
@[simp] theorem State.markClosed_landings (h : HoistId) : (s.markClosed h).landings = s.landings := rfl
@[simp] theorem State.markClosed_masses (h : HoistId) : (s.markClosed h).masses = s.masses := rfl
@[simp] theorem State.markClosed_groups (h : HoistId) : (s.markClosed h).groups = s.groups := rfl
@[simp] theorem State.markClosed_timers (h : HoistId) : (s.markClosed h).timers = s.timers := rfl
@[simp] theorem State.markClosed_proofInterval (h : HoistId) : (s.markClosed h).proofInterval = s.proofInterval := rfl
@[simp] theorem State.markClosed_degradedCeiling (h : HoistId) : (s.markClosed h).degradedCeiling = s.degradedCeiling := rfl
@[simp] theorem State.markClosed_latched (h : HoistId) : (s.markClosed h).latched = s.latched := rfl
@[simp] theorem State.markClosed_mask (h : HoistId) : (s.markClosed h).mask = s.mask := rfl
@[simp] theorem State.markClosed_attention (h : HoistId) : (s.markClosed h).attention = s.attention := rfl
@[simp] theorem State.markClosed_records (h : HoistId) : (s.markClosed h).records = s.records := rfl
@[simp] theorem State.markClosed_logging (h : HoistId) : (s.markClosed h).logging = s.logging := rfl
@[simp] theorem State.markClosed_overflow (h : HoistId) : (s.markClosed h).overflow = s.overflow := rfl
@[simp] theorem State.markClosed_links (h : HoistId) : (s.markClosed h).links = s.links := rfl
@[simp] theorem State.markClosed_strapPins (h : HoistId) : (s.markClosed h).strapPins = s.strapPins := rfl
@[simp] theorem State.markClosed_strapAddress (h : HoistId) : (s.markClosed h).strapAddress = s.strapAddress := rfl
@[simp] theorem State.markClosed_resetInput (h : HoistId) : (s.markClosed h).resetInput = s.resetInput := rfl
@[simp] theorem State.markClosed_uplinkReceiving (h : HoistId) : (s.markClosed h).uplinkReceiving = s.uplinkReceiving := rfl
@[simp] theorem State.markClosed_fieldReceiving (h : HoistId) : (s.markClosed h).fieldReceiving = s.fieldReceiving := rfl
@[simp] theorem State.markClosed_outbox (h : HoistId) : (s.markClosed h).outbox = s.outbox := rfl
@[simp] theorem State.markClosed_seconds (h : HoistId) : (s.markClosed h).seconds = s.seconds := rfl
@[simp] theorem State.markClosed_now (h : HoistId) : (s.markClosed h).now = s.now := rfl
@[simp] theorem State.markClosed_nextSecond (h : HoistId) : (s.markClosed h).nextSecond = s.nextSecond := rfl
@[simp] theorem State.markClosed_pending (h : HoistId) : (s.markClosed h).pending = s.pending := rfl

/-! ## modRecord -/

@[simp] theorem State.modRecord_shaft (l : LandingId) (f : LandingRec → LandingRec) : (s.modRecord l f).shaft = s.shaft := rfl
@[simp] theorem State.modRecord_compA (l : LandingId) (f : LandingRec → LandingRec) : (s.modRecord l f).compA = s.compA := rfl
@[simp] theorem State.modRecord_compB (l : LandingId) (f : LandingRec → LandingRec) : (s.modRecord l f).compB = s.compB := rfl
@[simp] theorem State.modRecord_hoists (l : LandingId) (f : LandingRec → LandingRec) : (s.modRecord l f).hoists = s.hoists := rfl
@[simp] theorem State.modRecord_masses (l : LandingId) (f : LandingRec → LandingRec) : (s.modRecord l f).masses = s.masses := rfl
@[simp] theorem State.modRecord_groups (l : LandingId) (f : LandingRec → LandingRec) : (s.modRecord l f).groups = s.groups := rfl
@[simp] theorem State.modRecord_timers (l : LandingId) (f : LandingRec → LandingRec) : (s.modRecord l f).timers = s.timers := rfl
@[simp] theorem State.modRecord_proofInterval (l : LandingId) (f : LandingRec → LandingRec) : (s.modRecord l f).proofInterval = s.proofInterval := rfl
@[simp] theorem State.modRecord_degradedCeiling (l : LandingId) (f : LandingRec → LandingRec) : (s.modRecord l f).degradedCeiling = s.degradedCeiling := rfl
@[simp] theorem State.modRecord_latched (l : LandingId) (f : LandingRec → LandingRec) : (s.modRecord l f).latched = s.latched := rfl
@[simp] theorem State.modRecord_mask (l : LandingId) (f : LandingRec → LandingRec) : (s.modRecord l f).mask = s.mask := rfl
@[simp] theorem State.modRecord_attention (l : LandingId) (f : LandingRec → LandingRec) : (s.modRecord l f).attention = s.attention := rfl
@[simp] theorem State.modRecord_records (l : LandingId) (f : LandingRec → LandingRec) : (s.modRecord l f).records = s.records := rfl
@[simp] theorem State.modRecord_logging (l : LandingId) (f : LandingRec → LandingRec) : (s.modRecord l f).logging = s.logging := rfl
@[simp] theorem State.modRecord_overflow (l : LandingId) (f : LandingRec → LandingRec) : (s.modRecord l f).overflow = s.overflow := rfl
@[simp] theorem State.modRecord_links (l : LandingId) (f : LandingRec → LandingRec) : (s.modRecord l f).links = s.links := rfl
@[simp] theorem State.modRecord_strapPins (l : LandingId) (f : LandingRec → LandingRec) : (s.modRecord l f).strapPins = s.strapPins := rfl
@[simp] theorem State.modRecord_strapAddress (l : LandingId) (f : LandingRec → LandingRec) : (s.modRecord l f).strapAddress = s.strapAddress := rfl
@[simp] theorem State.modRecord_resetInput (l : LandingId) (f : LandingRec → LandingRec) : (s.modRecord l f).resetInput = s.resetInput := rfl
@[simp] theorem State.modRecord_uplinkReceiving (l : LandingId) (f : LandingRec → LandingRec) : (s.modRecord l f).uplinkReceiving = s.uplinkReceiving := rfl
@[simp] theorem State.modRecord_fieldReceiving (l : LandingId) (f : LandingRec → LandingRec) : (s.modRecord l f).fieldReceiving = s.fieldReceiving := rfl
@[simp] theorem State.modRecord_outbox (l : LandingId) (f : LandingRec → LandingRec) : (s.modRecord l f).outbox = s.outbox := rfl
@[simp] theorem State.modRecord_seconds (l : LandingId) (f : LandingRec → LandingRec) : (s.modRecord l f).seconds = s.seconds := rfl
@[simp] theorem State.modRecord_now (l : LandingId) (f : LandingRec → LandingRec) : (s.modRecord l f).now = s.now := rfl
@[simp] theorem State.modRecord_nextSecond (l : LandingId) (f : LandingRec → LandingRec) : (s.modRecord l f).nextSecond = s.nextSecond := rfl
@[simp] theorem State.modRecord_pending (l : LandingId) (f : LandingRec → LandingRec) : (s.modRecord l f).pending = s.pending := rfl

/-! ## setSlot -/

@[simp] theorem State.setSlot_shaft (l : LandingId) (i : Nat) (x : SlotState) : (s.setSlot l i x).shaft = s.shaft := rfl
@[simp] theorem State.setSlot_compA (l : LandingId) (i : Nat) (x : SlotState) : (s.setSlot l i x).compA = s.compA := rfl
@[simp] theorem State.setSlot_compB (l : LandingId) (i : Nat) (x : SlotState) : (s.setSlot l i x).compB = s.compB := rfl
@[simp] theorem State.setSlot_hoists (l : LandingId) (i : Nat) (x : SlotState) : (s.setSlot l i x).hoists = s.hoists := rfl
@[simp] theorem State.setSlot_masses (l : LandingId) (i : Nat) (x : SlotState) : (s.setSlot l i x).masses = s.masses := rfl
@[simp] theorem State.setSlot_groups (l : LandingId) (i : Nat) (x : SlotState) : (s.setSlot l i x).groups = s.groups := rfl
@[simp] theorem State.setSlot_timers (l : LandingId) (i : Nat) (x : SlotState) : (s.setSlot l i x).timers = s.timers := rfl
@[simp] theorem State.setSlot_proofInterval (l : LandingId) (i : Nat) (x : SlotState) : (s.setSlot l i x).proofInterval = s.proofInterval := rfl
@[simp] theorem State.setSlot_degradedCeiling (l : LandingId) (i : Nat) (x : SlotState) : (s.setSlot l i x).degradedCeiling = s.degradedCeiling := rfl
@[simp] theorem State.setSlot_latched (l : LandingId) (i : Nat) (x : SlotState) : (s.setSlot l i x).latched = s.latched := rfl
@[simp] theorem State.setSlot_mask (l : LandingId) (i : Nat) (x : SlotState) : (s.setSlot l i x).mask = s.mask := rfl
@[simp] theorem State.setSlot_attention (l : LandingId) (i : Nat) (x : SlotState) : (s.setSlot l i x).attention = s.attention := rfl
@[simp] theorem State.setSlot_records (l : LandingId) (i : Nat) (x : SlotState) : (s.setSlot l i x).records = s.records := rfl
@[simp] theorem State.setSlot_logging (l : LandingId) (i : Nat) (x : SlotState) : (s.setSlot l i x).logging = s.logging := rfl
@[simp] theorem State.setSlot_overflow (l : LandingId) (i : Nat) (x : SlotState) : (s.setSlot l i x).overflow = s.overflow := rfl
@[simp] theorem State.setSlot_links (l : LandingId) (i : Nat) (x : SlotState) : (s.setSlot l i x).links = s.links := rfl
@[simp] theorem State.setSlot_strapPins (l : LandingId) (i : Nat) (x : SlotState) : (s.setSlot l i x).strapPins = s.strapPins := rfl
@[simp] theorem State.setSlot_strapAddress (l : LandingId) (i : Nat) (x : SlotState) : (s.setSlot l i x).strapAddress = s.strapAddress := rfl
@[simp] theorem State.setSlot_resetInput (l : LandingId) (i : Nat) (x : SlotState) : (s.setSlot l i x).resetInput = s.resetInput := rfl
@[simp] theorem State.setSlot_uplinkReceiving (l : LandingId) (i : Nat) (x : SlotState) : (s.setSlot l i x).uplinkReceiving = s.uplinkReceiving := rfl
@[simp] theorem State.setSlot_fieldReceiving (l : LandingId) (i : Nat) (x : SlotState) : (s.setSlot l i x).fieldReceiving = s.fieldReceiving := rfl
@[simp] theorem State.setSlot_outbox (l : LandingId) (i : Nat) (x : SlotState) : (s.setSlot l i x).outbox = s.outbox := rfl
@[simp] theorem State.setSlot_seconds (l : LandingId) (i : Nat) (x : SlotState) : (s.setSlot l i x).seconds = s.seconds := rfl
@[simp] theorem State.setSlot_now (l : LandingId) (i : Nat) (x : SlotState) : (s.setSlot l i x).now = s.now := rfl
@[simp] theorem State.setSlot_nextSecond (l : LandingId) (i : Nat) (x : SlotState) : (s.setSlot l i x).nextSecond = s.nextSecond := rfl
@[simp] theorem State.setSlot_pending (l : LandingId) (i : Nat) (x : SlotState) : (s.setSlot l i x).pending = s.pending := rfl

/-! ## modHandover -/

@[simp] theorem State.modHandover_shaft (l : LandingId) (h : HoistId) (f : Handover → Handover) : (s.modHandover l h f).shaft = s.shaft := rfl
@[simp] theorem State.modHandover_compA (l : LandingId) (h : HoistId) (f : Handover → Handover) : (s.modHandover l h f).compA = s.compA := rfl
@[simp] theorem State.modHandover_compB (l : LandingId) (h : HoistId) (f : Handover → Handover) : (s.modHandover l h f).compB = s.compB := rfl
@[simp] theorem State.modHandover_hoists (l : LandingId) (h : HoistId) (f : Handover → Handover) : (s.modHandover l h f).hoists = s.hoists := rfl
@[simp] theorem State.modHandover_masses (l : LandingId) (h : HoistId) (f : Handover → Handover) : (s.modHandover l h f).masses = s.masses := rfl
@[simp] theorem State.modHandover_groups (l : LandingId) (h : HoistId) (f : Handover → Handover) : (s.modHandover l h f).groups = s.groups := rfl
@[simp] theorem State.modHandover_timers (l : LandingId) (h : HoistId) (f : Handover → Handover) : (s.modHandover l h f).timers = s.timers := rfl
@[simp] theorem State.modHandover_proofInterval (l : LandingId) (h : HoistId) (f : Handover → Handover) : (s.modHandover l h f).proofInterval = s.proofInterval := rfl
@[simp] theorem State.modHandover_degradedCeiling (l : LandingId) (h : HoistId) (f : Handover → Handover) : (s.modHandover l h f).degradedCeiling = s.degradedCeiling := rfl
@[simp] theorem State.modHandover_latched (l : LandingId) (h : HoistId) (f : Handover → Handover) : (s.modHandover l h f).latched = s.latched := rfl
@[simp] theorem State.modHandover_mask (l : LandingId) (h : HoistId) (f : Handover → Handover) : (s.modHandover l h f).mask = s.mask := rfl
@[simp] theorem State.modHandover_attention (l : LandingId) (h : HoistId) (f : Handover → Handover) : (s.modHandover l h f).attention = s.attention := rfl
@[simp] theorem State.modHandover_records (l : LandingId) (h : HoistId) (f : Handover → Handover) : (s.modHandover l h f).records = s.records := rfl
@[simp] theorem State.modHandover_logging (l : LandingId) (h : HoistId) (f : Handover → Handover) : (s.modHandover l h f).logging = s.logging := rfl
@[simp] theorem State.modHandover_overflow (l : LandingId) (h : HoistId) (f : Handover → Handover) : (s.modHandover l h f).overflow = s.overflow := rfl
@[simp] theorem State.modHandover_links (l : LandingId) (h : HoistId) (f : Handover → Handover) : (s.modHandover l h f).links = s.links := rfl
@[simp] theorem State.modHandover_strapPins (l : LandingId) (h : HoistId) (f : Handover → Handover) : (s.modHandover l h f).strapPins = s.strapPins := rfl
@[simp] theorem State.modHandover_strapAddress (l : LandingId) (h : HoistId) (f : Handover → Handover) : (s.modHandover l h f).strapAddress = s.strapAddress := rfl
@[simp] theorem State.modHandover_resetInput (l : LandingId) (h : HoistId) (f : Handover → Handover) : (s.modHandover l h f).resetInput = s.resetInput := rfl
@[simp] theorem State.modHandover_uplinkReceiving (l : LandingId) (h : HoistId) (f : Handover → Handover) : (s.modHandover l h f).uplinkReceiving = s.uplinkReceiving := rfl
@[simp] theorem State.modHandover_fieldReceiving (l : LandingId) (h : HoistId) (f : Handover → Handover) : (s.modHandover l h f).fieldReceiving = s.fieldReceiving := rfl
@[simp] theorem State.modHandover_outbox (l : LandingId) (h : HoistId) (f : Handover → Handover) : (s.modHandover l h f).outbox = s.outbox := rfl
@[simp] theorem State.modHandover_seconds (l : LandingId) (h : HoistId) (f : Handover → Handover) : (s.modHandover l h f).seconds = s.seconds := rfl
@[simp] theorem State.modHandover_now (l : LandingId) (h : HoistId) (f : Handover → Handover) : (s.modHandover l h f).now = s.now := rfl
@[simp] theorem State.modHandover_nextSecond (l : LandingId) (h : HoistId) (f : Handover → Handover) : (s.modHandover l h f).nextSecond = s.nextSecond := rfl
@[simp] theorem State.modHandover_pending (l : LandingId) (h : HoistId) (f : Handover → Handover) : (s.modHandover l h f).pending = s.pending := rfl

/-! ## request -/

@[simp] theorem State.request_shaft (l : LandingId) (q : ShuttleRequest) (a b : Nat) : (s.request l q a b).shaft = s.shaft := rfl
@[simp] theorem State.request_compA (l : LandingId) (q : ShuttleRequest) (a b : Nat) : (s.request l q a b).compA = s.compA := rfl
@[simp] theorem State.request_compB (l : LandingId) (q : ShuttleRequest) (a b : Nat) : (s.request l q a b).compB = s.compB := rfl
@[simp] theorem State.request_landings (l : LandingId) (q : ShuttleRequest) (a b : Nat) : (s.request l q a b).landings = s.landings := rfl
@[simp] theorem State.request_hoists (l : LandingId) (q : ShuttleRequest) (a b : Nat) : (s.request l q a b).hoists = s.hoists := rfl
@[simp] theorem State.request_masses (l : LandingId) (q : ShuttleRequest) (a b : Nat) : (s.request l q a b).masses = s.masses := rfl
@[simp] theorem State.request_groups (l : LandingId) (q : ShuttleRequest) (a b : Nat) : (s.request l q a b).groups = s.groups := rfl
@[simp] theorem State.request_timers (l : LandingId) (q : ShuttleRequest) (a b : Nat) : (s.request l q a b).timers = s.timers := rfl
@[simp] theorem State.request_proofInterval (l : LandingId) (q : ShuttleRequest) (a b : Nat) : (s.request l q a b).proofInterval = s.proofInterval := rfl
@[simp] theorem State.request_degradedCeiling (l : LandingId) (q : ShuttleRequest) (a b : Nat) : (s.request l q a b).degradedCeiling = s.degradedCeiling := rfl
@[simp] theorem State.request_latched (l : LandingId) (q : ShuttleRequest) (a b : Nat) : (s.request l q a b).latched = s.latched := rfl
@[simp] theorem State.request_mask (l : LandingId) (q : ShuttleRequest) (a b : Nat) : (s.request l q a b).mask = s.mask := rfl
@[simp] theorem State.request_attention (l : LandingId) (q : ShuttleRequest) (a b : Nat) : (s.request l q a b).attention = s.attention := rfl
@[simp] theorem State.request_records (l : LandingId) (q : ShuttleRequest) (a b : Nat) : (s.request l q a b).records = s.records := rfl
@[simp] theorem State.request_logging (l : LandingId) (q : ShuttleRequest) (a b : Nat) : (s.request l q a b).logging = s.logging := rfl
@[simp] theorem State.request_overflow (l : LandingId) (q : ShuttleRequest) (a b : Nat) : (s.request l q a b).overflow = s.overflow := rfl
@[simp] theorem State.request_links (l : LandingId) (q : ShuttleRequest) (a b : Nat) : (s.request l q a b).links = s.links := rfl
@[simp] theorem State.request_strapPins (l : LandingId) (q : ShuttleRequest) (a b : Nat) : (s.request l q a b).strapPins = s.strapPins := rfl
@[simp] theorem State.request_strapAddress (l : LandingId) (q : ShuttleRequest) (a b : Nat) : (s.request l q a b).strapAddress = s.strapAddress := rfl
@[simp] theorem State.request_resetInput (l : LandingId) (q : ShuttleRequest) (a b : Nat) : (s.request l q a b).resetInput = s.resetInput := rfl
@[simp] theorem State.request_uplinkReceiving (l : LandingId) (q : ShuttleRequest) (a b : Nat) : (s.request l q a b).uplinkReceiving = s.uplinkReceiving := rfl
@[simp] theorem State.request_fieldReceiving (l : LandingId) (q : ShuttleRequest) (a b : Nat) : (s.request l q a b).fieldReceiving = s.fieldReceiving := rfl
@[simp] theorem State.request_seconds (l : LandingId) (q : ShuttleRequest) (a b : Nat) : (s.request l q a b).seconds = s.seconds := rfl
@[simp] theorem State.request_now (l : LandingId) (q : ShuttleRequest) (a b : Nat) : (s.request l q a b).now = s.now := rfl
@[simp] theorem State.request_nextSecond (l : LandingId) (q : ShuttleRequest) (a b : Nat) : (s.request l q a b).nextSecond = s.nextSecond := rfl
@[simp] theorem State.request_pending (l : LandingId) (q : ShuttleRequest) (a b : Nat) : (s.request l q a b).pending = s.pending := rfl

/-! ## What the updates write -/

theorem State.hoist_eq (h : HoistId) : s.hoist h = s.hoists[h.val] := rfl

@[simp] theorem State.setHoist_hoist_self (h : HoistId) (r : Hoist) : (s.setHoist h r).hoist h = r := by
  simp [State.hoist, State.setHoist]

theorem State.setHoist_hoist_ne {h x : HoistId} (n : x ≠ h) (r : Hoist) : (s.setHoist h r).hoist x = s.hoist x := by
  have : h.val ≠ x.val := fun e => n (Fin.ext e.symm)
  simp [State.hoist, State.setHoist, this]

theorem State.setHoist_hoist (h x : HoistId) (r : Hoist) :
    (s.setHoist h r).hoist x = if x = h then r else s.hoist x := by
  by_cases e : x = h
  · simp [e]
  · simp [e, s.setHoist_hoist_ne e]

@[simp] theorem State.modHoist_hoist_self (h : HoistId) (f : Hoist → Hoist) :
    (s.modHoist h f).hoist h = f (s.hoist h) := by simp [State.modHoist]

theorem State.modHoist_hoist_ne {h x : HoistId} (n : x ≠ h) (f : Hoist → Hoist) :
    (s.modHoist h f).hoist x = s.hoist x := s.setHoist_hoist_ne n _

theorem State.modHoist_hoist (h x : HoistId) (f : Hoist → Hoist) :
    (s.modHoist h f).hoist x = if x = h then f (s.hoist h) else s.hoist x := s.setHoist_hoist h x _

@[simp] theorem State.setHoist_setHoist (h : HoistId) (r r' : Hoist) :
    (s.setHoist h r).setHoist h r' = s.setHoist h r' := by simp [State.setHoist]

/-- Two updates of one hoist are one. -/
theorem State.modHoist_modHoist (h : HoistId) (f g : Hoist → Hoist) :
    (s.modHoist h f).modHoist h g = s.modHoist h fun r => g (f r) := by simp [State.modHoist]

@[simp] theorem State.setLanding_landing_self (l : LandingId) (r : Landing) : (s.setLanding l r).landing l = r := by
  simp [State.landing, State.setLanding]

theorem State.setLanding_landing_ne {l x : LandingId} (n : x ≠ l) (r : Landing) :
    (s.setLanding l r).landing x = s.landing x := by
  have : l.val ≠ x.val := fun e => n (Fin.ext e.symm)
  simp [State.landing, State.setLanding, this]

@[simp] theorem State.modLanding_landing_self (l : LandingId) (f : Landing → Landing) :
    (s.modLanding l f).landing l = f (s.landing l) := by simp [State.modLanding]

theorem State.modLanding_landing_ne {l x : LandingId} (n : x ≠ l) (f : Landing → Landing) :
    (s.modLanding l f).landing x = s.landing x := s.setLanding_landing_ne n _

@[simp] theorem State.setMass_mass_self (m : MassId) (r : Mass) : (s.setMass m r).mass m = r := by
  simp [State.mass, State.setMass]

theorem State.setMass_mass_ne {m x : MassId} (n : x ≠ m) (r : Mass) : (s.setMass m r).mass x = s.mass x := by
  have : m.val ≠ x.val := fun e => n (Fin.ext e.symm)
  simp [State.mass, State.setMass, this]

@[simp] theorem State.modMass_mass_self (m : MassId) (f : Mass → Mass) : (s.modMass m f).mass m = f (s.mass m) := by
  simp [State.modMass]

theorem State.modMass_mass_ne {m x : MassId} (n : x ≠ m) (f : Mass → Mass) : (s.modMass m f).mass x = s.mass x :=
  s.setMass_mass_ne n _

@[simp] theorem State.setGroup_group_self (g : GroupId) (x : BitVec 6) : (s.setGroup g x).group g = x := by
  simp [State.group, State.setGroup]

theorem State.setGroup_group_ne {g x : GroupId} (n : x ≠ g) (b : BitVec 6) : (s.setGroup g b).group x = s.group x := by
  have : g.val ≠ x.val := fun e => n (Fin.ext e.symm)
  simp [State.group, State.setGroup, this]

@[simp] theorem State.setComp_comp_self (c : Compartment) (r : CompartmentRec) : (s.setComp c r).comp c = r := by
  cases c <;> rfl

theorem State.setComp_comp_ne {c x : Compartment} (n : x ≠ c) (r : CompartmentRec) :
    (s.setComp c r).comp x = s.comp x := by
  cases c <;> cases x <;> first | rfl | exact absurd rfl n

@[simp] theorem State.modComp_comp_self (c : Compartment) (f : CompartmentRec → CompartmentRec) :
    (s.modComp c f).comp c = f (s.comp c) := s.setComp_comp_self c _

theorem State.modComp_comp_ne {c x : Compartment} (n : x ≠ c) (f : CompartmentRec → CompartmentRec) :
    (s.modComp c f).comp x = s.comp x := s.setComp_comp_ne n _

@[simp] theorem State.give_outbox (p : Port) (f : Frame) : (s.give p f).outbox = s.outbox ++ [(p, f)] := rfl

@[simp] theorem State.setLatched_latched (x : BitVec 13) : (s.setLatched x).latched = x := rfl

@[simp] theorem State.setLatched_attention (x : BitVec 13) : (s.setLatched x).attention = asserted x s.mask := rfl

@[simp] theorem State.setMask_mask (x : BitVec 13) : (s.setMask x).mask = x := rfl

@[simp] theorem State.setMask_attention (x : BitVec 13) : (s.setMask x).attention = asserted s.latched x := rfl

@[simp] theorem State.latch_latched (c : Category) : (s.latch c).latched = s.latched ||| c.set := rfl

@[simp] theorem State.latch_attention (c : Category) :
    (s.latch c).attention = asserted (s.latched ||| c.set) s.mask := rfl

@[simp] theorem State.indicate_latched (e : LinkError) : (s.indicate e).latched = s.latched ||| Category.link.set := rfl

@[simp] theorem State.indicate_attention (e : LinkError) :
    (s.indicate e).attention = asserted (s.latched ||| Category.link.set) s.mask := rfl

end Sys2Proof.Machine
end

