-- ==== Sys2Proof/Laws/Acts.lean ====
section
/-! SUPPORT. What the claim authority, the sequencer, the trip unit and the proof scheduler can do to the part: they change
hoists, the attention categories and the record queue, and they leave alone what the tracker and the registry hold. One
inductive relation says it once; each operation has one lemma that it is of that kind. -/

namespace Sys2Proof.Machine

/-! ## What a hoist keeps -/

theorem Hoist.SameTrack.rfl' (r : Hoist) : r.SameTrack r :=
  ⟨rfl, rfl, rfl, rfl, rfl, rfl, rfl, rfl, rfl, rfl, rfl, rfl, rfl⟩

theorem Hoist.SameTrack.trans {r r' r'' : Hoist} (a : r.SameTrack r') (b : r'.SameTrack r'') : r.SameTrack r'' := by
  constructor <;> simp only [b.config, b.latest, b.freshness, b.reportTimer, b.lastReportTime, b.travel,
    b.weighPending, b.carried, b.profileCeiling, b.refDown, b.refUp, b.lastVelocity, b.lastReason, a.config, a.latest,
    a.freshness, a.reportTimer, a.lastReportTime, a.travel, a.weighPending, a.carried, a.profileCeiling, a.refDown,
    a.refUp, a.lastVelocity, a.lastReason]

/-- The hoist is in the state it was in, and what goes with its state holds if it held. -/
structure Hoist.SameState (r r' : Hoist) : Prop where
  state : r'.state = r.state
  sound : r.Sound → r'.Sound

/-! ## Reading a hoist after a change -/

theorem State.hoist_recompute (s : State) (h k : HoistId) :
    (s.recompute h).hoist k =
      if k = h then { s.hoist h with envDown := s.envelope (s.hoist h) .down, envUp := s.envelope (s.hoist h) .up }
      else s.hoist k := State.modHoist_hoist ..

theorem State.hoist_of_hoists {s t : State} (e : t.hoists = s.hoists) (h : HoistId) : t.hoist h = s.hoist h := by
  unfold State.hoist
  simp only [e]

/-! ## The relation -/

/-- `s.Acts t`: `t` comes from `s` by changes of the kind this file is about. -/
inductive State.Acts : State → State → Prop
  | same (s : State) : State.Acts s s
  | andThen {s t u : State} (first : State.Acts s t) (next : State.Acts t u) : State.Acts s u
  | hoist (s : State) (h : HoistId) (r : Hoist) (track : (s.hoist h).SameTrack r) (state : (s.hoist h).SameState r) :
      State.Acts s (s.setHoist h r)
  | recompute (s : State) (h : HoistId) : State.Acts s (s.recompute h)
  | enter (s : State) (h : HoistId) (st : HoistState) : State.Acts s (s.enter h st)
  | latch (s : State) (c : Category) : State.Acts s (s.latch c)
  | record (s : State) (rec : MoveRecord) : State.Acts s (s.appendRecord rec)

theorem State.Acts.mod (s : State) (h : HoistId) (f : Hoist → Hoist) (track : (s.hoist h).SameTrack (f (s.hoist h)))
    (state : (s.hoist h).SameState (f (s.hoist h))) : s.Acts (s.modHoist h f) := .hoist s h _ track state

theorem State.Acts.fold {α : Type} (f : State → α → State) (each : ∀ s x, State.Acts s (f s x)) (xs : List α)
    (s : State) : s.Acts (xs.foldl f s) := by
  induction xs generalizing s with
  | nil => exact .same s
  | cons x xs ih => exact (each s x).andThen (ih _)

/-! ### Claims -/

theorem Hoist.sameTrack_modMove (r : Hoist) (f : Move → Move) : r.SameTrack (r.modMove f) := by
  unfold Hoist.modMove; split <;> constructor <;> rfl

theorem Hoist.sameState_modMove (r : Hoist) (f : Move → Move) : r.SameState (r.modMove f) := by
  unfold Hoist.modMove; split <;> exact ⟨rfl, fun x => x⟩

/-- A change of run and extent alone. -/
theorem State.Acts.claims (s : State) (h : HoistId) (run : Option Run) (extent : List Nat) :
    s.Acts (s.setHoist h { s.hoist h with run := run, extent := extent }) :=
  .hoist s h _ (by constructor <;> rfl) ⟨rfl, fun x => x⟩

theorem State.walk_acts (s : State) (h : HoistId) : s.Acts (s.walk h) := by
  unfold State.walk
  dsimp only
  split
  · have step : ∀ r : Hoist, r.SameTrack r.setWaited ∧ r.SameState r.setWaited := fun r =>
      ⟨Hoist.sameTrack_modMove r _, Hoist.sameState_modMove r _⟩
    have base : ∀ (run : Option Run) (extent : List Nat), (s.hoist h).SameTrack
        { s.hoist h with run := run, extent := extent } ∧ (s.hoist h).SameState
        { s.hoist h with run := run, extent := extent } := by
      intro run extent
      exact ⟨by constructor <;> rfl, rfl, fun x => x⟩
    have set : ∀ (run : Option Run) (extent : List Nat), s.Acts (s.setHoist h
        (if extent = [] then { s.hoist h with run := run, extent := extent }
          else Hoist.setWaited { s.hoist h with run := run, extent := extent })) := by
      intro run extent
      split
      · exact .hoist s h _ (base _ _).1 (base _ _).2
      · refine (State.Acts.hoist s h _ (base run extent).1 (base run extent).2).andThen ?_
        have := State.Acts.hoist (s.setHoist h { s.hoist h with run := run, extent := extent }) h
          (Hoist.setWaited { s.hoist h with run := run, extent := extent })
          (by simpa using (step _).1) (by simpa using (step _).2)
        have e : (s.setHoist h { s.hoist h with run := run, extent := extent }).setHoist h
            (Hoist.setWaited { s.hoist h with run := run, extent := extent }) =
            s.setHoist h (Hoist.setWaited { s.hoist h with run := run, extent := extent }) := by
          simp [State.setHoist]
        rwa [e] at this
    split
    · exact set _ _
    · exact (set _ _).andThen (.recompute _ h)
  · exact .same s

theorem State.offer_acts (s : State) (c : Compartment) (z : Nat) : s.Acts (s.offer c z) := by
  unfold State.offer; split
  · exact s.walk_acts _
  · exact .same s

theorem State.offerAll_acts (s : State) (c : Compartment) (zs : List Nat) : s.Acts (s.offerAll c zs) :=
  .fold _ (fun s z => s.offer_acts c z) zs s

theorem State.setRun_acts (s : State) (h : HoistId) (run : Option Run) (left : List Nat) :
    s.Acts (s.setRun h run left) := by
  unfold State.setRun
  have first : s.Acts ((s.modHoist h fun r => { r with run := run }).recompute h) :=
    (State.Acts.mod s h _ (by constructor <;> rfl) ⟨rfl, fun x => x⟩).andThen (.recompute _ h)
  dsimp only; split
  · exact first.andThen (State.offerAll_acts _ _ _)
  · exact first

theorem State.clearExtent_acts (s : State) (h : HoistId) : s.Acts (s.clearExtent h) :=
  .mod s h _ (by constructor <;> rfl) ⟨rfl, fun x => x⟩

theorem State.trimTo_acts (s : State) (h : HoistId) (keep : Option Run) : s.Acts (s.trimTo h keep) := by
  unfold State.trimTo; dsimp only; split
  · split
    · exact .same s
    · exact s.setRun_acts _ _ _
  · exact .same s

theorem State.trimAtMoveEnd_acts (s : State) (h : HoistId) : s.Acts (s.trimAtMoveEnd h) := s.trimTo_acts _ _

theorem State.trimToSpan_acts (s : State) (h : HoistId) : s.Acts (s.trimToSpan h) := s.trimTo_acts _ _

theorem State.runToSpan_acts (s : State) (h : HoistId) : s.Acts (s.runToSpan h) := s.setRun_acts _ _ _

theorem State.releaseBehind_acts (s : State) (h : HoistId) : s.Acts (s.releaseBehind h) := by
  unfold State.releaseBehind; dsimp only; split
  · split
    · split
      · exact .same s
      · exact s.setRun_acts _ _ _
    · exact .same s
  · exact .same s

theorem State.addAtTrip_acts (s : State) (h : HoistId) : s.Acts (s.addAtTrip h) := by
  unfold State.addAtTrip; dsimp only; split
  · split
    · exact .same s
    · exact State.Acts.andThen (.claims s h _ (s.hoist h).extent) (.recompute _ h)
  · exact .same s

/-! ### The sequencer -/

theorem State.markClosed_acts (s : State) (h : HoistId) : s.Acts (s.markClosed h) :=
  .mod s h _ (Hoist.sameTrack_modMove _ _) (Hoist.sameState_modMove _ _)

theorem State.logMove_acts (s : State) (h : HoistId) (o : MoveOutcome) : s.Acts (s.logMove h o) := by
  unfold State.logMove; split
  · exact .record _ _
  · exact .same s

theorem State.logEnd_acts (s : State) (h : HoistId) (o : Option MoveOutcome) : s.Acts (s.logEnd h o) := by
  unfold State.logEnd; split
  · exact s.logMove_acts h _
  · exact .same s

theorem State.closeMove_acts (s : State) (h : HoistId) (o : MoveOutcome) : s.Acts (s.closeMove h o) := by
  unfold State.closeMove; split
  · exact (s.markClosed_acts h).andThen (State.logMove_acts _ h o)
  · exact .same s

theorem State.endMove_acts (s : State) (h : HoistId) (st : HoistState) : s.Acts (s.endMove h st) :=
  (((s.markClosed_acts h).andThen (State.clearExtent_acts _ h)).andThen (State.trimAtMoveEnd_acts _ h)).andThen
    (.enter _ h st)

theorem State.stopHoist_acts (s : State) (h : HoistId) (x : StopReason) : s.Acts (s.stopHoist h x) := by
  unfold State.stopHoist; split
  · exact ((s.clearExtent_acts h).andThen (.mod _ h _ (Hoist.sameTrack_modMove _ _)
      (Hoist.sameState_modMove _ _))).andThen (.enter _ h _)
  · exact .same s

theorem State.stopAll_acts (s : State) (hs : List HoistId) : s.Acts (s.stopAll hs) :=
  .fold _ (fun s h => s.stopHoist_acts h .stopped) hs s

/-! ### Trips -/

theorem State.tripHoist_acts (s : State) (h : HoistId) (c : TripCause) : s.Acts (s.tripHoist h c) := by
  unfold State.tripHoist; split
  · exact .latch s _
  · split
    · exact State.Acts.andThen (State.Acts.andThen (State.Acts.andThen (State.Acts.andThen (State.Acts.andThen
        (.mod s h (fun r => { r with tripCause := some c, overtaken := r.overtakenBy s.now c }) (by constructor <;> rfl) ⟨rfl, fun x => x⟩) (.enter _ h .tripped))
        (.latch _ .trip))
        (State.closeMove_acts _ h .tripped)) (State.clearExtent_acts _ h)) (State.addAtTrip_acts _ h)
    · exact .same s

theorem State.applyTripScope_acts (s : State) (h : HoistId) : s.Acts (s.applyTripScope h) := by
  unfold State.applyTripScope; split
  · split
    · exact s.stopAll_acts _
    · exact .same s
  · exact .same s

theorem State.trip_acts (s : State) (h : HoistId) (c : TripCause) : s.Acts (s.trip h c) := by
  unfold State.trip; dsimp only; split
  · exact (s.tripHoist_acts h c).andThen (State.applyTripScope_acts _ h)
  · exact s.tripHoist_acts h c

/-- The one change of the allowance outside an entry to STOPPING. -/
theorem State.lowerAllowance_acts (s : State) (h : HoistId) (elapsed : Nat) : s.Acts (s.lowerAllowance h elapsed) := by
  apply State.Acts.mod
  · split <;> constructor <;> rfl
  · split
    · rename_i e
      exact ⟨rfl, fun ⟨a, b, c, d, _, f⟩ => ⟨a, b, c, d, by simp [e], f⟩⟩
    · exact ⟨rfl, fun x => x⟩

theorem State.actOnTests_acts (s : State) (h : HoistId) (elapsed : Nat) : s.Acts (s.actOnTests h elapsed) := by
  unfold State.actOnTests
  dsimp only
  have one := s.lowerAllowance_acts h elapsed
  have two : s.Acts (match s.reportCauses h elapsed with
      | c :: _ => (s.lowerAllowance h elapsed).tripHoist h c
      | [] => s.lowerAllowance h elapsed) := by
    split
    · exact one.andThen (State.tripHoist_acts _ _ _)
    · exact one
  have three := two.andThen (State.Acts.fold (fun s x => s.tripHoist x .separation)
    (fun s x => s.tripHoist_acts x .separation) (s.tooCloseTo h) _)
  split
  · exact three.andThen (State.applyTripScope_acts _ h)
  · exact three

/-! ### Brake proof -/

theorem State.degrade_acts (s : State) (h : HoistId) : s.Acts (s.degrade h) :=
  (State.Acts.mod s h _ (Hoist.sameTrack_modMove _ _) (Hoist.sameState_modMove _ _)).andThen (.latch _ _)

theorem State.evaluateProof_acts (s : State) (h : HoistId) : s.Acts (s.evaluateProof h) := by
  unfold State.evaluateProof; dsimp only; split
  · exact .same s
  · have first : s.Acts ((s.modHoist h fun r => { r with proofStatus := s.evaluatedStatus (s.hoist h) }).recompute h) := by
      exact State.Acts.andThen (.mod s h _ (by constructor <;> rfl) ⟨rfl, fun x => x⟩) (.recompute _ h)
    split
    · exact first.andThen (State.degrade_acts _ h)
    · exact first

theorem State.evaluateAll_acts (s : State) : s.Acts s.evaluateAll := .fold _ (fun s h => s.evaluateProof_acts h) _ s

theorem State.takeProofResult_acts (s : State) (h : HoistId) : s.Acts (s.takeProofResult h) := by
  unfold State.takeProofResult; dsimp only; split
  · split
    · split
      · exact .same s
      · exact State.Acts.andThen (.enter s h .parked) (.mod _ h _ (by constructor <;> rfl) ⟨rfl, fun x => x⟩)
      · exact s.trip_acts _ _
    · exact .same s
  · exact .same s

/-! ### Events -/

theorem State.resolveState_acts (s : State) (h : HoistId) : s.Acts (s.resolveState h) := by
  unfold State.resolveState; dsimp only; split
  · split
    · exact .enter s h _
    · exact .same s
  · split
    · exact s.endMove_acts _ _
    · exact .same s
  · split
    · exact s.endMove_acts _ _
    · exact .same s
  · split
    · exact (s.trimToSpan_acts h).andThen (.enter _ h _)
    · exact .same s
  all_goals exact .same s

theorem State.reportLoss_acts (s : State) (h : HoistId) : s.Acts (s.reportLoss h) := by
  unfold State.reportLoss; split
  all_goals first
    | exact s.trip_acts _ _
    | exact .latch s _
    | exact .same s

theorem State.actOnStale_acts (s : State) (h : HoistId) : s.Acts (s.actOnStale h) := by
  unfold State.actOnStale; split
  · split
    · exact s.stopHoist_acts _ _
    · exact s.trip_acts _ _
  · exact .same s

theorem State.claim_acts (s : State) (h : HoistId) (target : Nat) : s.Acts (s.claim h target) := by
  exact State.Acts.andThen (.mod s h _ (by constructor <;> rfl) ⟨rfl, fun x => x⟩) (State.walk_acts _ h)

theorem State.degradeIfDue_acts (s : State) (h : HoistId) : s.Acts (s.degradeIfDue h) := by
  unfold State.degradeIfDue; split
  · exact s.degrade_acts h
  · exact .same s

theorem State.retarget_acts (s : State) (h : HoistId) (target : Nat) (p : Bool) : s.Acts (s.retarget h target p) := by
  unfold State.retarget; dsimp only
  exact ((((((s.clearExtent_acts h).andThen (State.setRun_acts _ h _ _)).andThen
    (.mod _ h _ (Hoist.sameTrack_modMove _ _) (Hoist.sameState_modMove _ _))).andThen (State.claim_acts _ h _)).andThen
    (State.degradeIfDue_acts _ h)).andThen (.recompute _ h))

theorem State.relatchRecords_acts (s : State) : s.Acts s.relatchRecords := by
  unfold State.relatchRecords; split
  · exact .latch s _
  · exact .same s

/-! ## What such changes leave alone -/

theorem State.OnlyHoists.trans {s t u : State} (a : s.OnlyHoists t) (b : t.OnlyHoists u) : s.OnlyHoists u := by
  unfold State.OnlyHoists at *
  rw [b, a]

theorem State.appendRecord_only (s : State) (rec : MoveRecord) : s.OnlyHoists (s.appendRecord rec) := by
  unfold State.appendRecord
  split
  · rfl
  · split <;> rfl

theorem State.Acts.only {s t : State} (a : s.Acts t) : s.OnlyHoists t := by
  induction a with
  | same => rfl
  | andThen _ _ x y => exact x.trans y
  | hoist => rfl
  | recompute => rfl
  | enter => rfl
  | latch => rfl
  | record s rec => exact s.appendRecord_only rec

theorem State.hoist_appendRecord (s : State) (rec : MoveRecord) (h : HoistId) :
    (s.appendRecord rec).hoist h = s.hoist h := by
  apply State.hoist_of_hoists
  unfold State.appendRecord
  split
  · rfl
  · split <;> rfl

theorem Hoist.sameTrack_inState (r : Hoist) (now : Nat) (t : TimerSettings) (st : HoistState) :
    r.SameTrack (r.inState now t st) := by constructor <;> rfl

theorem State.hoist_enter (s : State) (h k : HoistId) (st : HoistState) :
    (s.enter h st).hoist k =
      if k = h then
        { (s.hoist h).inState s.now s.timers st with
          envDown := (s.modHoist h fun r => r.inState s.now s.timers st).envelope
            ((s.hoist h).inState s.now s.timers st) .down
          envUp := (s.modHoist h fun r => r.inState s.now s.timers st).envelope
            ((s.hoist h).inState s.now s.timers st) .up }
      else s.hoist k := by
  unfold State.enter
  rw [State.hoist_recompute]
  split
  · rw [State.modHoist_hoist_self]
  · rename_i ne
    rw [State.modHoist_hoist_ne _ ne _]

/-- What the tracker and the registry hold of a hoist is as it was. -/
theorem State.Acts.track {s t : State} (a : s.Acts t) (k : HoistId) : (s.hoist k).SameTrack (t.hoist k) := by
  induction a with
  | same s => exact .rfl' _
  | andThen _ _ x y => exact x.trans y
  | hoist s h r track _ =>
    rw [State.setHoist_hoist]
    split
    · rename_i e; exact e ▸ track
    · exact .rfl' _
  | recompute s h =>
    rw [State.hoist_recompute]
    split
    · rename_i e; subst e; constructor <;> rfl
    · exact .rfl' _
  | enter s h st =>
    rw [State.hoist_enter]
    split
    · rename_i e; subst e; constructor <;> rfl
    · exact .rfl' _
  | latch s c => rw [State.hoist_of_hoists (t := s.latch c) rfl]; exact .rfl' _
  | record s rec => rw [State.hoist_appendRecord]; exact .rfl' _

/-! ## What such changes keep true -/

theorem State.envelope_rest (s : State) {r : Hoist} (d : Direction) (e : r.state.takesVelocity = false) :
    s.envelope r d = 0 := by simp [State.envelope, e]

theorem State.recompute_sound (s : State) (r : Hoist) (x : r.Sound) :
    Hoist.Sound { r with envDown := s.envelope r .down, envUp := s.envelope r .up } :=
  have ⟨a, b, c, d, e, _⟩ := x
  ⟨a, b, c, d, e, fun off => ⟨s.envelope_rest _ off, s.envelope_rest _ off⟩⟩

/-- What entering a state leaves is sound whatever is put in the envelopes, as long as they are 0 at rest. -/
theorem Hoist.inState_sound (r : Hoist) (now : Nat) (t : TimerSettings) (st : HoistState) (down up : Nat)
    (x : r.Sound) (zero : st.takesVelocity = false → down = 0 ∧ up = 0) :
    Hoist.Sound { r.inState now t st with envDown := down, envUp := up } := by
  have watched := x.2.1
  refine ⟨rfl, ?_, ?_, ?_, ?_, zero⟩
  · show Option.isSome (if st.watched = true then _ else _) = st.watched
    cases st.watched
    · rfl
    · cases w : r.state.watched
      · simp
      · simpa [w] using watched
  · show Option.isSome (if st.timesEngage = true then _ else _) = st.timesEngage
    cases st.timesEngage <;> rfl
  · show Option.isSome (if st = .proving then _ else _) = (st == .proving)
    cases st <;> rfl
  · show Option.isSome (if st = .stopping then _ else _) = (st == .stopping)
    cases st <;> rfl

theorem State.AttentionOk.of_latched (s : State) (x : BitVec 13) (ok : s.AttentionOk) : (s.setLatched x).AttentionOk :=
  ⟨rfl, ok.2⟩

theorem State.appendRecord_sound (s : State) (rec : MoveRecord) (ok : s.AttentionOk ∧ s.RecordsOk) :
    (s.appendRecord rec).AttentionOk ∧ (s.appendRecord rec).RecordsOk := by
  obtain ⟨a, b, c⟩ := ok
  unfold State.appendRecord
  split
  · exact ⟨a, b, c⟩
  · rename_i on
    split
    · rename_i room
      refine ⟨⟨rfl, a.2⟩, ?_, fun off => absurd off on⟩
      show (s.records ++ [rec]).length ≤ Config.recordCapacity
      rw [List.length_append]
      exact room
    · exact ⟨⟨rfl, a.2⟩, b, fun off => absurd off on⟩

theorem State.Acts.sound {s t : State} (a : s.Acts t) (ok : s.Sound) : t.Sound := by
  induction a with
  | same => exact ok
  | andThen _ _ x y => exact y (x ok)
  | hoist s h r _ state =>
    refine ⟨ok.1, ok.2.1, fun k => ?_⟩
    rw [State.setHoist_hoist]
    split
    · exact state.sound (ok.2.2 h)
    · exact ok.2.2 k
  | recompute s h =>
    refine ⟨ok.1, ok.2.1, fun k => ?_⟩
    rw [State.hoist_recompute]
    split
    · exact s.recompute_sound _ (ok.2.2 h)
    · exact ok.2.2 k
  | enter s h st =>
    refine ⟨ok.1, ok.2.1, fun k => ?_⟩
    rw [State.hoist_enter]
    split
    · exact Hoist.inState_sound _ _ _ _ _ _ (ok.2.2 h) fun off =>
        ⟨State.envelope_rest _ _ off, State.envelope_rest _ _ off⟩
    · exact ok.2.2 k
  | latch s c => exact ⟨⟨rfl, ok.1.2⟩, ok.2.1, ok.2.2⟩
  | record s rec =>
    have x := s.appendRecord_sound rec ⟨ok.1, ok.2.1⟩
    exact ⟨x.1, x.2, fun k => by rw [State.hoist_appendRecord]; exact ok.2.2 k⟩

end Sys2Proof.Machine
end

