-- ==== Sys2Proof/Laws/Works.lean ====
section
/-! SUPPORT. What any command other than a start can do to the part, said once: `s.Works q t`, where `q` bounds the frames that
may have been given to the ports on the way. Each operation has one lemma. -/

namespace Sys2Proof.Machine

/-- The fields that the invariants and the queue rule speak of, the outbox apart, are as they were. -/
structure State.SameFrame (s t : State) : Prop where
  latched : t.latched = s.latched
  mask : t.mask = s.mask
  attention : t.attention = s.attention
  pending : t.pending = s.pending
  resetInput : t.resetInput = s.resetInput
  strapPins : t.strapPins = s.strapPins
  strapAddress : t.strapAddress = s.strapAddress

/-- Bounds on the frames given: requests on the field port alone, any frame but a DEMAND down, any frame. -/
inductive Given where
  | requests
  | noDemand
  | any

def Given.allows : Given → Port × Frame → Prop
  | .requests, x => x.1 = .field ∧ x.2.kind ≠ kindDemand
  | .noDemand, x => x.1 = .field → x.2.kind ≠ kindDemand
  | .any, _ => True

theorem Given.allows_field (q : Given) {f : Frame} (other : f.kind ≠ kindDemand) : q.allows (.field, f) := by
  cases q
  · exact ⟨rfl, other⟩
  · exact fun _ => other
  · trivial

/-- The frames waiting are those that waited, and then some that the bound allows. -/
def State.Gives (q : Given) (s t : State) : Prop :=
  ∃ new, t.outbox = s.outbox ++ new ∧ ∀ x ∈ new, q.allows x

theorem State.Gives.of_eq {q : Given} {s t : State} (e : t.outbox = s.outbox) : State.Gives q s t :=
  ⟨[], by simp [e], by simp⟩

theorem State.Gives.one {q : Given} {s t : State} {x : Port × Frame} (e : t.outbox = s.outbox ++ [x])
    (ok : q.allows x) : State.Gives q s t := ⟨[x], e, by simpa using ok⟩

theorem State.Gives.trans {q : Given} {s t u : State} (a : State.Gives q s t) (b : State.Gives q t u) :
    State.Gives q s u := by
  obtain ⟨x, ex, px⟩ := a
  obtain ⟨y, ey, py⟩ := b
  exact ⟨x ++ y, by rw [ey, ex, List.append_assoc], fun z m => (List.mem_append.1 m).elim (px z) (py z)⟩

inductive State.Works (q : Given) : State → State → Prop
  | same (s : State) : State.Works q s s
  | andThen {s t u : State} (first : State.Works q s t) (next : State.Works q t u) : State.Works q s u
  | acts {s t : State} (a : s.Acts t) : State.Works q s t
  | hoist (s : State) (h : HoistId) (r : Hoist) (sound : (s.hoist h).Sound → r.Sound) :
      State.Works q s (s.setHoist h r)
  | data {s t : State} (frame : s.SameFrame t) (hoists : t.hoists = s.hoists) (records : t.records = s.records)
      (logging : t.logging = s.logging) (overflow : t.overflow = s.overflow) (gives : State.Gives q s t) :
      State.Works q s t
  | queue {s t : State} (frame : s.SameFrame t) (hoists : t.hoists = s.hoists) (ok : s.RecordsOk → t.RecordsOk)
      (gives : State.Gives q s t) : State.Works q s t
  | latched (s : State) (x : BitVec 13) : State.Works q s (s.setLatched x)
  | mask (s : State) (x : BitVec 13) (trip : x.getLsbD Category.trip.bit = false) : State.Works q s (s.setMask x)
  | give (s : State) (p : Port) (f : Frame) (ok : q.allows (p, f)) : State.Works q s (s.give p f)

namespace State.Works

variable {q : Given}

theorem fold {α : Type} (f : State → α → State) (each : ∀ s x, State.Works q s (f s x)) (xs : List α) (s : State) :
    State.Works q s (xs.foldl f s) := by
  induction xs generalizing s with
  | nil => exact .same s
  | cons x xs ih => exact (each s x).andThen (ih _)

theorem mod (s : State) (h : HoistId) (f : Hoist → Hoist) (sound : (s.hoist h).Sound → (f (s.hoist h)).Sound) :
    State.Works q s (s.modHoist h f) := .hoist s h _ sound

theorem landing (s : State) (l : LandingId) (x : Landing) : State.Works q s (s.setLanding l x) :=
  .data ⟨rfl, rfl, rfl, rfl, rfl, rfl, rfl⟩ rfl rfl rfl rfl (.of_eq rfl)

theorem modLanding (s : State) (l : LandingId) (f : Landing → Landing) : State.Works q s (s.modLanding l f) :=
  landing s l _

theorem mass (s : State) (m : MassId) (x : Mass) : State.Works q s (s.setMass m x) :=
  .data ⟨rfl, rfl, rfl, rfl, rfl, rfl, rfl⟩ rfl rfl rfl rfl (.of_eq rfl)

theorem comp (s : State) (c : Compartment) (x : CompartmentRec) : State.Works q s (s.setComp c x) := by
  cases c <;> exact .data ⟨rfl, rfl, rfl, rfl, rfl, rfl, rfl⟩ rfl rfl rfl rfl (.of_eq rfl)

theorem received (s : State) (p : Port) : State.Works q s (s.received p) := by
  cases p <;> exact .data ⟨rfl, rfl, rfl, rfl, rfl, rfl, rfl⟩ rfl rfl rfl rfl (.of_eq rfl)

theorem receiving (s : State) (p : Port) : State.Works q s (s.receiving p) := by
  cases p <;> exact .data ⟨rfl, rfl, rfl, rfl, rfl, rfl, rfl⟩ rfl rfl rfl rfl (.of_eq rfl)

theorem latch (s : State) (c : Category) : State.Works q s (s.latch c) := .acts (.latch s c)

theorem indicate (s : State) (e : LinkError) : State.Works q s (s.indicate e) := by
  unfold State.indicate
  dsimp only
  refine .andThen (t := { s with links := _ }) ?_ (latch _ _)
  exact .data ⟨rfl, rfl, rfl, rfl, rfl, rfl, rfl⟩ rfl rfl rfl rfl (.of_eq rfl)

theorem enter (s : State) (h : HoistId) (st : HoistState) : State.Works q s (s.enter h st) := .acts (.enter s h st)

theorem recompute (s : State) (h : HoistId) : State.Works q s (s.recompute h) := .acts (.recompute s h)

/-! ### The registry -/

theorem modRecord (s : State) (l : LandingId) (f : LandingRec → LandingRec) : State.Works q s (s.modRecord l f) :=
  modLanding s l _

theorem setSlot (s : State) (l : LandingId) (i : Nat) (st : SlotState) : State.Works q s (s.setSlot l i st) :=
  modRecord s l _

theorem setStatus (s : State) (m : MassId) (st : MassStatus) : State.Works q s (s.setStatus m st) := mass s m _

theorem setCarried (s : State) (h : HoistId) (c : Carried) : State.Works q s (s.setCarried h c) :=
  mod s h _ fun x => x

theorem setWeighPending (s : State) (h : HoistId) (b : Bool) : State.Works q s (s.setWeighPending h b) :=
  mod s h _ fun x => x

theorem doubtPlace (s : State) (t : MassId) : State.Works q s (s.doubtPlace t) := by
  unfold State.doubtPlace; split
  · exact setSlot _ _ _ _
  · split
    · exact setCarried _ _ _
    · exact .same s
  · exact .same s

theorem vacatePlace (s : State) (t : MassId) : State.Works q s (s.vacatePlace t) := by
  unfold State.vacatePlace; split
  · exact setSlot _ _ _ _
  · split
    · exact setCarried _ _ _
    · exact .same s
  · exact .same s

theorem weigh (s : State) (h : HoistId) : State.Works q s (s.weigh h) := by
  unfold State.weigh
  dsimp only
  refine .andThen ?_ (setWeighPending _ _ _)
  split
  · split
    · exact .same s
    · exact ((setCarried _ _ _).andThen (setStatus _ _ _)).andThen (latch _ _)
    · exact (setCarried _ _ _).andThen (latch _ _)
  · split
    · exact (setCarried _ _ _).andThen (latch _ _)
    · split
      · exact (mass s _ _).andThen (latch _ _)
      · exact mass s _ _
    · exact latch _ _

theorem weighIfDue (s : State) (h : HoistId) : State.Works q s (s.weighIfDue h) := by
  unfold State.weighIfDue; split
  · exact weigh s h
  · exact .same s

theorem loseMass (s : State) (p : Place) (e k : Option MassId) : State.Works q s (s.loseMass p e k) := by
  unfold State.loseMass; split
  · split
    · exact setStatus _ _ _
    · exact .same s
  · exact .same s

theorem applyCode (s : State) (l : LandingId) (i : Nat) (e : Option MassId) (code : Byte) :
    State.Works q s (s.applyCode l i e code) := by
  unfold State.applyCode; dsimp only; split
  · exact setSlot _ _ _ _
  · split
    · split
      · exact (setSlot _ _ _ _).andThen (setStatus _ _ _)
      · exact setSlot _ _ _ _
    · split
      · split
        · split <;> exact ((doubtPlace _ _).andThen (setSlot _ _ _ _)).andThen (setStatus _ _ _)
        · exact ((doubtPlace _ _).andThen (setSlot _ _ _ _)).andThen (setStatus _ _ _)
      · exact setSlot _ _ _ _

theorem reconcileSlot (s : State) (l : LandingId) (i : Nat) (code : Byte) :
    State.Works q s (s.reconcileSlot l i code) := by
  unfold State.reconcileSlot; split
  · exact .same s
  · dsimp only
    split
    · exact (applyCode _ _ _ _ _).andThen (loseMass _ _ _ _)
    · exact ((applyCode _ _ _ _ _).andThen (loseMass _ _ _ _)).andThen (latch _ _)

theorem reconcile (s : State) (l : LandingId) (codes : List Byte) : State.Works q s (s.reconcile l codes) :=
  fold (fun s (x : Byte × Nat) => s.reconcileSlot l x.2 x.1) (fun s x => reconcileSlot s l x.2 x.1) _ s

/-! ### Handovers -/

theorem request (s : State) (l : LandingId) (x : ShuttleRequest) (a b : Nat) : State.Works q s (s.request l x a b) :=
  .give _ _ _ (q.allows_field (show kindShuttleReq ≠ kindDemand by decide))

theorem requestFor (s : State) (l : LandingId) (v : Handover) (x : ShuttleRequest) :
    State.Works q s (s.requestFor l v x) := request _ _ _ _ _

theorem modHandover (s : State) (l : LandingId) (h : HoistId) (f : Handover → Handover) :
    State.Works q s (s.modHandover l h f) := modLanding s l _

theorem setWaited (s : State) (h : HoistId) : State.Works q s (s.modHoist h Hoist.setWaited) :=
  mod s h _ (Hoist.sameState_modMove _ _).sound

theorem markWaited (s : State) (l : LandingId) (h : HoistId) : State.Works q s (s.markWaited l h) :=
  (modHandover _ _ _ _).andThen (setWaited _ _)

theorem removeHandover (s : State) (l : LandingId) (h : HoistId) : State.Works q s (s.removeHandover l h) := by
  unfold State.removeHandover; dsimp only; split
  · exact (modLanding _ _ _).andThen (enter _ _ _)
  · exact (modLanding _ _ _).andThen (recompute _ _)

theorem grant (s : State) (l : LandingId) (v : Handover) : State.Works q s (s.grant l v) := by
  unfold State.grant; dsimp only
  refine .andThen (modLanding s l fun x => { x with holder := .handover v.hoist }) ?_
  split
  · split
    · exact ((setSlot _ _ _ _).andThen (modHandover _ _ _ _)).andThen (requestFor _ _ _ _)
    · exact (latch _ _).andThen (removeHandover _ _ _)
  · exact (latch _ _).andThen (removeHandover _ _ _)

theorem arbiterFor (l : LandingId) (n : Nat) (s : State) : State.Works q s (State.arbiterFor l n s) := by
  induction n generalizing s with
  | zero => exact .same s
  | succ n ih =>
    unfold State.arbiterFor; split
    · split
      · exact .same s
      · exact ((fold _ (fun s w => markWaited s l _) _ s).andThen (grant _ _ _)).andThen (ih _)
    · exact .same s

theorem arbiter (s : State) (l : LandingId) : State.Works q s (s.arbiter l) := arbiterFor l _ s

theorem closeHandover (s : State) (l : LandingId) (h : HoistId) : State.Works q s (s.closeHandover l h) :=
  (removeHandover _ _ _).andThen (arbiter _ _)

theorem toUnlatching (s : State) (l : LandingId) (v : Handover) : State.Works q s (s.toUnlatching l v) :=
  (modHandover _ _ _ _).andThen (requestFor _ _ _ _)

theorem settle (s : State) (l : LandingId) (h : HoistId) (o : HandoverOutcome) : State.Works q s (s.settle l h o) :=
  modHandover _ _ _ _

theorem toStuck (s : State) (l : LandingId) (h : HoistId) : State.Works q s (s.toStuck l h) :=
  (modHandover _ _ _ _).andThen (latch _ _)

theorem toTransferring (s : State) (l : LandingId) (v : Handover) : State.Works q s (s.toTransferring l v) :=
  (modHandover _ _ _ _).andThen (requestFor _ _ _ _)

theorem revertSlot (s : State) (l : LandingId) (v : Handover) : State.Works q s (s.revertSlot l v) := by
  unfold State.revertSlot; split
  · exact setSlot _ _ _ _
  · exact setSlot _ _ _ _
  · exact .same s

theorem undoLatch (s : State) (l : LandingId) (v : Handover) (o : HandoverOutcome) :
    State.Works q s (s.undoLatch l v o) :=
  ((revertSlot _ _ _).andThen (settle _ _ _ _)).andThen (toUnlatching _ _ _)

theorem latchFailure (s : State) (l : LandingId) (v : Handover) : State.Works q s (s.latchFailure l v) :=
  (undoLatch _ _ _ _).andThen (latch _ _)

theorem transferFailure (s : State) (l : LandingId) (v : Handover) : State.Works q s (s.transferFailure l v) := by
  unfold State.transferFailure; dsimp only
  refine .andThen (.andThen ?_ (setCarried _ _ _)) (toStuck _ _ _)
  split
  · exact (setStatus _ _ _).andThen (setSlot _ _ _ _)
  · exact .same s

theorem applyTransfer (s : State) (l : LandingId) (v : Handover) (i : Nat) (m : MassId) :
    State.Works q s (s.applyTransfer l v i m) := by
  unfold State.applyTransfer; split <;>
    exact ((setSlot _ _ _ _).andThen (setCarried _ _ _)).andThen (setStatus _ _ _)

theorem applyMismatch (s : State) (l : LandingId) (v : Handover) (i : Nat) (m : MassId) (tag : Byte) :
    State.Works q s (s.applyMismatch l v i m tag) := by
  unfold State.applyMismatch; dsimp only
  have first : State.Works q s (match s.declaredTag (s.massInOtherHandover v.hoist) tag with
      | some t =>
        match v.kind with
        | .deposit => ((s.doubtPlace t).setSlot l i (.occupied t)).setStatus t (.placed (.slot l i))
        | .collect => ((s.doubtPlace t).setCarried v.hoist (.mass t)).setStatus t (.placed (.hoist v.hoist))
      | none =>
        match v.kind with
        | .deposit => s.setSlot l i (.blocked none)
        | .collect => s.setCarried v.hoist .unknownLoad) := by
    split
    · split
      · exact ((doubtPlace _ _).andThen (setSlot _ _ _ _)).andThen (setStatus _ _ _)
      · exact ((doubtPlace _ _).andThen (setCarried _ _ _)).andThen (setStatus _ _ _)
    · split
      · exact setSlot _ _ _ _
      · exact setCarried _ _ _
  refine .andThen (.andThen (.andThen first ?_) (setStatus _ _ _)) (latch _ _)
  cases v.kind
  · exact setCarried _ _ _
  · exact setSlot _ _ _ _

theorem transferDone (s : State) (l : LandingId) (v : Handover) (tag : Byte) :
    State.Works q s (s.transferDone l v tag) := by
  unfold State.transferDone; split
  · dsimp only
    refine .andThen (.andThen (.andThen (.andThen ?_ (setWeighPending _ _ _)) (modRecord _ _ _)) (settle _ _ _ _))
      (toUnlatching _ _ _)
    split
    · exact applyTransfer _ _ _ _ _
    · exact applyMismatch _ _ _ _ _ _
  · exact .same s

theorem reportToHandover (s : State) (l : LandingId) (v : Handover) (st : ShuttleState) (tag : Byte) :
    State.Works q s (s.reportToHandover l v st tag) := by
  unfold State.reportToHandover; split
  · exact toTransferring _ _ _
  · exact latchFailure _ _ _
  · exact transferDone _ _ _ _
  · exact transferFailure _ _ _
  · exact transferFailure _ _ _
  · exact closeHandover _ _ _
  · exact toStuck _ _ _
  · exact .same s

theorem handoverTimeout (s : State) (l : LandingId) (v : Handover) : State.Works q s (s.handoverTimeout l v) := by
  unfold State.handoverTimeout; split
  · exact latchFailure _ _ _
  · exact transferFailure _ _ _
  · exact toStuck _ _ _
  · exact .same s
  · exact .same s

theorem endSurvey (s : State) (l : LandingId) : State.Works q s (s.endSurvey l) :=
  (modLanding _ _ _).andThen (arbiter _ _)

theorem surveyFailure (s : State) (l : LandingId) : State.Works q s (s.surveyFailure l) :=
  (latch _ _).andThen (endSurvey _ _)

theorem reportToSurvey (s : State) (l : LandingId) (st : ShuttleState) (codes : List Byte) :
    State.Works q s (s.reportToSurvey l st codes) := by
  unfold State.reportToSurvey; dsimp only; split
  · split
    · exact (reconcile _ _ _).andThen (endSurvey _ _)
    · exact surveyFailure _ _
  · exact surveyFailure _ _
  all_goals exact .same s

theorem takeShuttleReport (s : State) (l : LandingId) (w : ShuttleWire) :
    State.Works q s (s.takeShuttleReport l w) := by
  unfold State.takeShuttleReport; dsimp only
  refine .andThen (modLanding s l fun x => { x with shuttle := shuttleStateOf w.state }) ?_
  split
  · split
    · exact reportToHandover _ _ _ _ _
    · exact .same _
  · exact reportToSurvey _ _ _ _
  · exact arbiter _ _

theorem shuttlePath (s : State) (a : Byte) (w : ShuttleWire) : State.Works q s (s.shuttlePath a w) := by
  unfold State.shuttlePath; split
  · exact takeShuttleReport _ _ _
  · exact .same s

/-! ### The tracker and the report path -/

theorem trackReport (s : State) (h : HoistId) (w : ReportWire) : State.Works q s (s.trackReport h w) := by
  unfold State.trackReport; split
  · exact mod s h _ fun x => x
  · exact .same s

theorem copyReference (s : State) (h : HoistId) : State.Works q s (s.copyReference h) := mod s h _ fun x => x

theorem reportPath (s : State) (h : HoistId) (w : ReportWire) : State.Works q s (s.reportPath h w) := by
  unfold State.reportPath; dsimp only
  exact ((((((((copyReference s h).andThen (trackReport _ h w)).andThen (.acts (State.releaseBehind_acts _ h))).andThen
    (.acts (State.actOnTests_acts _ h _))).andThen (.acts (State.resolveState_acts _ h))).andThen
    (.acts (State.takeProofResult_acts _ h))).andThen (.acts (State.evaluateProof_acts _ h))).andThen
    ((weighIfDue _ h).andThen (.acts (State.logEnd_acts _ h _)))).andThen (recompute _ h)

/-! ### DEMAND -/

theorem restartDemandTimer (s : State) (h : HoistId) : State.Works q s (s.restartDemandTimer h) := by
  refine mod s h _ fun ⟨a, b, c⟩ => ⟨a, ?_, c⟩
  simpa using b

theorem superviseDemand (s : State) (h : HoistId) (v : Int) : State.Works .any s (s.superviseDemand h v) := by
  unfold State.superviseDemand; dsimp only
  refine .andThen ?_ (.give _ _ _ trivial)
  have one : State.Works .any s (s.modHoist h fun r =>
      { r with lastVelocity := (s.hoist h).forwardedVelocity v, lastReason := (s.hoist h).clampReason v }) :=
    mod s h _ fun x => x
  have two : ∀ t, State.Works .any s t → State.Works .any s (if (s.hoist h).clampReason v = .mismatch then
      t.latch .mismatch else t) := by
    intro t w
    split
    · exact w.andThen (latch _ _)
    · exact w
  split
  · exact ((two _ one).andThen (mod _ h _ (Hoist.sameState_modMove _ _).sound)).andThen (latch _ _)
  · exact two _ one

theorem expiry (s : State) (timer : Option Nat) (f : State → State) (each : ∀ t, State.Works q t (f t)) :
    State.Works q s (expiry s timer f) := by
  unfold Machine.expiry; split
  · exact each s
  · exact .same s

theorem takeSecond (s : State) (h : HoistId) : State.Works q s (s.takeSecond h) :=
  (mod s h _ fun x => x).andThen (latch _ _)

theorem lapse (s : State) (h : HoistId) : State.Works q s (s.lapse h) := by
  unfold State.lapse; dsimp only
  refine .andThen (mod s h (fun r => { r with reportTimer := none }) fun x => x) ?_
  split
  · exact (mod _ h _ fun x => x).andThen (.acts (State.reportLoss_acts _ h))
  · exact .same _
  · exact .same _

/-! ### Orders: the bodies -/

theorem emptyTable (s : State) (c : Compartment) : State.Works q s (s.emptyTable c) := comp s c _

theorem emptyIfShort (s : State) (c : Compartment) : State.Works q s (s.emptyIfShort c) := by
  unfold State.emptyIfShort; split
  · exact .same s
  · exact emptyTable _ _

theorem emptyIfMisfit (s : State) (c : Compartment) : State.Works q s (s.emptyIfMisfit c) := by
  unfold State.emptyIfMisfit; split
  · exact .same s
  · exact emptyTable _ _

theorem setRunsToSpans (s : State) (c : Compartment) : State.Works q s (s.setRunsToSpans c) :=
  fold _ (fun s h => (mod s h _ fun x => x).andThen (recompute _ h)) _ s

theorem defineLanding (s : State) (l : LandingId) (rec : LandingRec) : State.Works q s (s.defineLanding l rec) := by
  unfold State.defineLanding; dsimp only
  split <;> split
  · exact ((modLanding _ _ _).andThen (emptyIfMisfit _ _)).andThen (emptyIfMisfit _ _)
  · exact (modLanding _ _ _).andThen (emptyIfMisfit _ _)
  · exact (modLanding _ _ _).andThen (emptyIfMisfit _ _)
  · exact modLanding _ _ _

theorem writeConfig (s : State) (h : HoistId) (k : HoistConfig) : State.Works q s (s.writeConfig h k) := by
  unfold State.writeConfig; dsimp only
  exact .andThen (mod s h _ (by split <;> exact fun x => x)) (enter _ _ _)

theorem writeCeiling (s : State) (h : HoistId) (v : Nat) : State.Works q s (s.writeCeiling h v) :=
  (mod s h _ fun x => x).andThen (recompute _ h)

theorem startMove (s : State) (h : HoistId) (t : Nat) (p : Bool) : State.Works q s (s.startMove h t p) := by
  unfold State.startMove; dsimp only
  exact (((mod s h _ fun x => x).andThen (enter _ _ _)).andThen (.acts (State.claim_acts _ _ _))).andThen
    ((State.Works.acts (State.degradeIfDue_acts _ _)).andThen (recompute _ h))

theorem openTransfer (s : State) (h : HoistId) (l : LandingId) (x : TransferRequest) :
    State.Works q s (s.openTransfer h l x) := by
  unfold State.openTransfer; dsimp only
  have first : State.Works q s ((s.modLanding l fun y =>
      { y with queue := y.queue ++ [s.openedHandover h l x] }).enter h .docked) :=
    (modLanding _ _ _).andThen (enter _ _ _)
  split
  · exact first.andThen (arbiter _ _)
  · exact first.andThen (markWaited _ _ _)

theorem applyResolve (s : State) (l : LandingId) (v : Handover) (x : ResolveOutcome) :
    State.Works q s (s.applyResolve l v x) := by
  unfold State.applyResolve; split
  · split <;>
      exact (((setStatus _ _ _).andThen (setSlot _ _ _ _)).andThen (setCarried _ _ _)).andThen (setWeighPending _ _ _)
  · exact .same s

theorem blockSlotAt (s : State) (l : LandingId) (i : Nat) : State.Works q s (s.blockSlotAt l i) := by
  unfold State.blockSlotAt; split
  · exact setSlot _ _ _ _
  · exact (setSlot _ _ _ _).andThen (setStatus _ _ _)
  · exact setSlot _ _ _ _
  · exact setSlot _ _ _ _
  · exact .same s

theorem declare (s : State) (m : MassId) (n : Nat) (p : Place) : State.Works q s (s.declare m n p) := by
  unfold State.declare
  refine .andThen ((vacatePlace s m).andThen (mass _ m ⟨.uncertain (some p), some n, none⟩)) ?_
  unfold State.receiveMass; split
  · exact setSlot _ _ _ _
  · exact setCarried _ _ _

theorem releaseHoist (s : State) (h : HoistId) : State.Works q s (s.releaseHoist h) :=
  (mod s h _ fun x => x).andThen (enter _ _ _)

theorem setScope (s : State) (c : Compartment) (st : CompartmentState) : State.Works q s (s.setScope c st) :=
  comp s c _

theorem doubtCarried (s : State) (h : HoistId) : State.Works q s (s.doubtCarried h) := by
  unfold State.doubtCarried; split
  · exact .same s
  · exact (setWeighPending _ _ _).andThen (setStatus _ _ _)
  · exact setWeighPending _ _ _

theorem admitHoist (s : State) (h : HoistId) : State.Works q s (s.admitHoist h) :=
  ((mod s h _ fun x => x).andThen (enter _ _ _)).andThen (doubtCarried _ _)

theorem markSlot (s : State) (l : LandingId) (i : Nat) : State.Works q s (s.markSlot l i) := by
  unfold State.markSlot; dsimp only; split
  · exact (setSlot _ _ _ _).andThen (setStatus _ _ _)
  · exact setSlot _ _ _ _

theorem bringUnder (s : State) (c : Compartment) : State.Works q s (s.bringUnder c) := by
  unfold State.bringUnder State.markServing
  exact ((setScope s c .supervised).andThen (fold _ (fun s h => admitHoist s h) _ _)).andThen
    (fold _ (fun s l => fold _ (fun s i => markSlot s l i) _ s) _ _)

theorem startSurvey (s : State) (l : LandingId) (rec : LandingRec) : State.Works q s (s.startSurvey l rec) :=
  (modLanding _ _ _).andThen (request _ _ _ _ _)

theorem recomputeDegraded (s : State) : State.Works q s s.recomputeDegraded :=
  fold _ (fun s h => recompute s h) _ s

/-! ## What follows from it -/

theorem frame {s t : State} (w : State.Works q s t) :
    t.pending = s.pending ∧ t.resetInput = s.resetInput ∧ t.strapPins = s.strapPins ∧
      t.strapAddress = s.strapAddress := by
  induction w with
  | same | hoist | latched | mask | give => exact ⟨rfl, rfl, rfl, rfl⟩
  | andThen _ _ a b =>
    exact ⟨b.1.trans a.1, b.2.1.trans a.2.1, b.2.2.1.trans a.2.2.1, b.2.2.2.trans a.2.2.2⟩
  | acts a =>
    have e := a.only
    unfold State.OnlyHoists at e
    rw [e]
    exact ⟨rfl, rfl, rfl, rfl⟩
  | data f | queue f => exact ⟨f.pending, f.resetInput, f.strapPins, f.strapAddress⟩

theorem gives {s t : State} (w : State.Works q s t) : State.Gives q s t := by
  induction w with
  | same | hoist | latched | mask => exact .of_eq rfl
  | andThen _ _ a b => exact a.trans b
  | acts a =>
    have e := a.only
    unfold State.OnlyHoists at e
    exact .of_eq (by rw [e])
  | data _ _ _ _ _ g => exact g
  | queue _ _ _ g => exact g
  | give s p f ok => exact .one rfl ok

theorem sound {s t : State} (w : State.Works q s t) (ok : s.Sound) : t.Sound := by
  induction w with
  | same | give => exact ok
  | andThen _ _ a b => exact b (a ok)
  | acts a => exact a.sound ok
  | hoist s h r x =>
    refine ⟨ok.1, ok.2.1, fun k => ?_⟩
    rw [State.setHoist_hoist]
    split
    · exact x (ok.2.2 h)
    · exact ok.2.2 k
  | data f e records logging overflow _ =>
    refine ⟨?_, ?_, fun k => by rw [State.hoist_of_hoists e]; exact ok.2.2 k⟩
    · simpa only [State.AttentionOk, f.attention, f.latched, f.mask] using ok.1
    · simpa only [State.RecordsOk, records, logging, overflow] using ok.2.1
  | queue f e records _ =>
    refine ⟨?_, records ok.2.1, fun k => by rw [State.hoist_of_hoists e]; exact ok.2.2 k⟩
    simpa only [State.AttentionOk, f.attention, f.latched, f.mask] using ok.1
  | latched s x => exact ⟨⟨rfl, ok.1.2⟩, ok.2.1, ok.2.2⟩
  | mask s x trip => exact ⟨⟨rfl, trip⟩, ok.2.1, ok.2.2⟩

end State.Works

end Sys2Proof.Machine
end

