-- ==== Sys2Proof/Laws/Orders.lean ====
section
/-! SUPPORT. What carrying out an ORDER can do: it works on the part with no frame given but requests on the field port, and
refused it changes nothing. One lemma for each order's body. -/

namespace Sys2Proof.Machine

/-- What every order's body does. -/
structure Replied (s : State) (out : State × Reply) : Prop where
  works : State.Works .requests s out.1
  refused : out.2.result ≠ .accepted → out.1 = s ∧ out.2.data = []

namespace Replied

open State.Works

theorem refuse (s : State) (r : Result) : Replied s (s.refuse r) := ⟨.same s, fun _ => ⟨rfl, rfl⟩⟩

theorem refuseWith (s : State) (r : Result) (d : Nat) : Replied s (s.refuseWith r d) := ⟨.same s, fun _ => ⟨rfl, rfl⟩⟩

theorem accept {s t : State} (w : State.Works .requests s t) : Replied s t.accept := ⟨w, fun x => absurd rfl x⟩

theorem acceptWith {s t : State} (d : Nat) (w : State.Works .requests s t) : Replied s (t.acceptWith d) :=
  ⟨w, fun x => absurd rfl x⟩

theorem acceptData (s : State) (d : List Byte) : Replied s (s.acceptData d) := ⟨.same s, fun x => absurd rfl x⟩

/-- A check, and what comes of it either way. -/
theorem check {s : State} {p : Prop} [Decidable p] {x y : State × Reply} (a : Replied s x) (b : Replied s y) :
    Replied s (if p then x else y) := by split <;> assumption

/-- A committed table that is emptied on a condition. -/
theorem emptyIf {q : Given} (s : State) (c : Compartment) (p : Prop) [Decidable p] :
    State.Works q s (if p then s.emptyTable c else s) := by
  split
  · exact emptyTable _ _
  · exact .same s

/-! ### The shaft map -/

theorem shaftWrite (s : State) (a b c d : Nat) : Replied s (s.shaftWrite a b c d) := by
  unfold State.shaftWrite; dsimp only
  repeat' split
  all_goals first
    | exact .refuse _ _
    | exact .accept (.andThen (t := { s with shaft := ⟨a, b, c, d⟩ })
        (.data ⟨rfl, rfl, rfl, rfl, rfl, rfl, rfl⟩ rfl rfl rfl rfl (.of_eq rfl))
        ((emptyIfShort _ _).andThen (emptyIfShort _ _)))

theorem zoneWriteEntry (s : State) (c : Byte) (i u x : Nat) (k l : Byte) :
    Replied s (s.zoneWriteEntry c i u x k l) := by
  unfold State.zoneWriteEntry
  repeat' split
  all_goals first
    | exact .refuse _ _
    | exact .accept (comp _ _ _)

theorem zoneWriteCount (s : State) (c : Byte) (n : Nat) : Replied s (s.zoneWriteCount c n) := by
  unfold State.zoneWriteCount
  repeat' split
  all_goals first
    | exact .refuse _ _
    | exact .accept (comp _ _ _)

theorem zoneCommit (s : State) (c : Byte) : Replied s (s.zoneCommit c) := by
  unfold State.zoneCommit
  repeat' split
  all_goals first
    | exact .refuse _ _
    | exact .refuseWith _ _ _
    | exact .accept ((comp _ _ _).andThen (setRunsToSpans _ _))
    | exact .accept (comp _ _ _)

theorem zoneQuery (s : State) (c t : Byte) (i : Nat) : Replied s (s.zoneQuery c t i) := by
  unfold State.zoneQuery
  repeat' split
  all_goals first
    | exact .refuse _ _
    | exact .acceptData _ _

theorem landingRemove (s : State) (l : Byte) : Replied s (s.landingRemove l) := by
  unfold State.landingRemove; dsimp only
  split
  · exact .refuse _ _
  · split
    · exact .refuse _ _
    · split
      · exact .refuse _ _
      · split
        · exact .accept (.same s)
        · rename_i x _ _ _ _
          exact .accept (((landing s x .initial).andThen (emptyIf _ _ _)).andThen (emptyIf _ _ _))

theorem landingWrite (s : State) (l : Byte) (d n : Nat) (m x : Byte) (y : Nat) :
    Replied s (s.landingWrite l d n m x y) := by
  unfold State.landingWrite
  repeat' split
  all_goals first
    | exact .refuse _ _
    | exact .accept (defineLanding _ _ _)

/-! ### Hoists -/

theorem hoistConfig (s : State) (h : Byte) (p : HoistParams) : Replied s (s.hoistConfig h p) := by
  unfold State.hoistConfig
  repeat' split
  all_goals first
    | exact .refuse _ _
    | exact .accept (writeConfig _ _ _)

theorem hoistQuery (s : State) (h : Byte) : Replied s (s.hoistQuery h) := by
  unfold State.hoistQuery
  split
  · exact .refuse _ _
  · exact .acceptData _ _

theorem engage (s : State) (h : Byte) : Replied s (s.engage h) := by
  unfold State.engage
  repeat' split
  all_goals first
    | exact .refuse _ _
    | exact .accept (enter _ _ _)

theorem park (s : State) (h : Byte) : Replied s (s.park h) := by
  unfold State.park
  repeat' split
  all_goals first
    | exact .refuse _ _
    | exact .accept (enter _ _ _)

theorem abort (s : State) (h : Byte) : Replied s (s.abort h) := by
  unfold State.abort
  split
  · exact .refuse _ _
  · split
    · exact .accept (.acts (State.stopHoist_acts _ _ _))
    · split
      · exact .accept (.same s)
      · exact .refuse _ _

theorem move (s : State) (h : Byte) (t : Nat) (p : Bool) : Replied s (s.move h t p) := by
  unfold State.move
  split
  · exact .refuse _ _
  · refine .check (.refuse _ _) (.check (.refuse _ _) (.check (.refuse _ _) (.check (.refuse _ _)
      (.check (.refuse _ _) ?_))))
    split
    · exact .refuseWith _ _ _
    · exact .check (.accept (.acts (State.retarget_acts _ _ _ _))) (.accept (startMove _ _ _ _))

theorem resetHoist (s : State) (h : Byte) : Replied s (s.resetHoist h) := by
  unfold State.resetHoist; dsimp only
  repeat' split
  all_goals first
    | exact .refuse _ _
    | exact .accept (((mod _ _ (fun r => { r with tripCause := none }) fun x => x).andThen (enter _ _ _)).andThen
        (.acts (State.runToSpan_acts _ _)))

theorem ceiling (s : State) (h : Byte) (v : Nat) : Replied s (s.ceiling h v) := by
  unfold State.ceiling
  repeat' split
  all_goals first
    | exact .refuse _ _
    | exact .accept (writeCeiling _ _ _)

theorem groupWrite (s : State) (g x : Byte) : Replied s (s.groupWrite g x) := by
  unfold State.groupWrite
  repeat' split
  all_goals first
    | exact .refuse _ _
    | exact .accept (.data ⟨rfl, rfl, rfl, rfl, rfl, rfl, rfl⟩ rfl rfl rfl rfl (.of_eq rfl))

theorem groupCeiling (s : State) (g : Byte) (v : Nat) : Replied s (s.groupCeiling g v) := by
  unfold State.groupCeiling
  split
  · exact .refuse _ _
  · exact .acceptWith _ (fold _ (fun s h => writeCeiling s h v) _ s)

theorem groupStop (s : State) (g : Byte) : Replied s (s.groupStop g) := by
  unfold State.groupStop
  split
  · exact .refuse _ _
  · exact .acceptWith _ (.acts (State.stopAll_acts _ _))

theorem allStop (s : State) : Replied s s.allStop := .acceptWith _ (.acts (State.stopAll_acts _ _))

/-! ### Handovers -/

theorem transferAt (s : State) (h : HoistId) (k : HoistConfig) (l : LandingId) (q : TransferRequest) :
    Replied s (s.transferAt h k l q) := by
  unfold State.transferAt
  dsimp only
  cases q.slot
  all_goals
    dsimp only
    repeat' split
    all_goals first
      | exact .refuse _ _
      | exact .acceptWith _ (openTransfer _ _ _ _)

theorem transfer (s : State) (h k x m : Byte) : Replied s (s.transfer h k x m) := by
  unfold State.transfer State.transferTo
  repeat' split
  all_goals first
    | exact .refuse _ _
    | exact transferAt _ _ _ _ _

theorem abortTransfer (s : State) (h : Byte) : Replied s (s.abortTransfer h) := by
  unfold State.abortTransfer
  repeat' split
  all_goals first
    | exact .refuse _ _
    | exact .accept (closeHandover _ _ _)
    | exact .accept (undoLatch _ _ _ _)

theorem resolve (s : State) (h x : Byte) : Replied s (s.resolve h x) := by
  unfold State.resolve
  repeat' split
  all_goals first
    | exact .refuse _ _
    | exact .acceptWith _ (toUnlatching _ _ _)
    | exact .acceptWith _ (((applyResolve _ _ _ _).andThen (settle _ _ _ _)).andThen (toUnlatching _ _ _))

theorem blockSlot (s : State) (l : Byte) (i : Nat) : Replied s (s.blockSlot l i) := by
  unfold State.blockSlot
  repeat' split
  all_goals first
    | exact .refuse _ _
    | exact .accept (blockSlotAt _ _ _)

theorem unblockSlot (s : State) (l : Byte) (i : Nat) : Replied s (s.unblockSlot l i) := by
  unfold State.unblockSlot
  repeat' split
  all_goals first
    | exact .refuse _ _
    | exact .accept (setSlot _ _ _ _)

theorem landingQuery (s : State) (l : Byte) : Replied s (s.landingQuery l) := by
  unfold State.landingQuery
  split
  · exact .refuse _ _
  · exact .acceptData _ _

/-! ### Masses -/

theorem declareMass (s : State) (m : Byte) (n : Nat) (k p i : Byte) : Replied s (s.declareMass m n k p i) := by
  unfold State.declareMass
  repeat' split
  all_goals first
    | exact .refuse _ _
    | exact .accept (declare _ _ _ _)

theorem removeMass (s : State) (m : Byte) : Replied s (s.removeMass m) := by
  unfold State.removeMass
  split
  · exact .refuse _ _
  · split
    · exact .refuse _ _
    · split
      · exact .acceptWith _ (.same s)
      · exact .acceptWith _ ((vacatePlace _ _).andThen (mass _ _ _))

theorem releaseScope (s : State) (c : Byte) : Replied s (s.releaseScope c) := by
  unfold State.releaseScope
  repeat' split
  all_goals first
    | exact .refuse _ _
    | exact .accept ((setScope _ _ _).andThen (fold _ (fun s h => releaseHoist s h) _ _))

theorem admitScope (s : State) (c : Byte) : Replied s (s.admitScope c) := by
  unfold State.admitScope
  repeat' split
  all_goals first
    | exact .refuse _ _
    | exact .refuseWith _ _ _
    | exact .accept (bringUnder _ _)

theorem verify (s : State) (l : Byte) : Replied s (s.verify l) := by
  unfold State.verify
  repeat' split
  all_goals first
    | exact .refuse _ _
    | exact .accept (startSurvey _ _ _)

theorem massQuery (s : State) (m : Byte) : Replied s (s.massQuery m) := by
  unfold State.massQuery
  split
  · exact .refuse _ _
  · exact .acceptData _ _

/-! ### The part -/

theorem prove (s : State) (h : Byte) : Replied s (s.prove h) := by
  unfold State.prove
  repeat' split
  all_goals first
    | exact .refuse _ _
    | exact .accept ((enter _ _ _).andThen
        (.give _ _ _ (Given.allows_field _ (show kindProofReq ≠ kindDemand by decide))))

theorem proofWrite (s : State) (a b : Nat) : Replied s (s.proofWrite a b) := by
  unfold State.proofWrite
  refine .check (.accept ?_) (.refuse _ _)
  refine .andThen (t := State.evaluateAll { s with proofInterval := a * 3600, degradedCeiling := b }) ?_ ?_
  · exact .andThen (t := { s with proofInterval := a * 3600, degradedCeiling := b })
      (.data ⟨rfl, rfl, rfl, rfl, rfl, rfl, rfl⟩ rfl rfl rfl rfl (.of_eq rfl)) (.acts (State.evaluateAll_acts _))
  · split
    · exact recomputeDegraded _
    · exact .same _

theorem withoutTrip_bit (x : BitVec 13) : (withoutTrip x).getLsbD Category.trip.bit = false := by
  simp [withoutTrip, Category.set, Category.bit]

theorem maskWrite (s : State) (x : Half) : Replied s (s.maskWrite x) := by
  unfold State.maskWrite
  split
  · exact .accept (.mask _ _ (withoutTrip_bit _))
  · exact .refuse _ _

theorem scopeOptions (s : State) (c x y : Byte) : Replied s (s.scopeOptions c x y) := by
  unfold State.scopeOptions
  repeat' split
  all_goals first
    | exact .refuse _ _
    | exact .accept (comp _ _ _)

theorem status (s : State) : Replied s s.status := by
  refine ⟨?_, fun x => absurd rfl x⟩
  exact .andThen (t := State.setLatched { s with links := .clear } 0)
    (.andThen (t := { s with links := .clear }) (.data ⟨rfl, rfl, rfl, rfl, rfl, rfl, rfl⟩ rfl rfl rfl rfl (.of_eq rfl))
      (.latched _ _))
    (.acts (State.relatchRecords_acts _))

theorem readRecord (s : State) : Replied s s.readRecord := by
  unfold State.readRecord
  split
  · exact .acceptData _ _
  · rename_i rest e
    refine ⟨.queue ⟨rfl, rfl, rfl, rfl, rfl, rfl, rfl⟩ rfl (fun ⟨a, b⟩ => ?_) (.of_eq rfl), fun x => absurd rfl x⟩
    rw [e] at a b
    exact ⟨Nat.le_of_succ_le a, fun off => absurd (b off).1 (by simp)⟩

theorem logControl (s : State) (x : Byte) : Replied s (s.logControl x) := by
  unfold State.logControl
  split
  · exact .accept (.queue ⟨rfl, rfl, rfl, rfl, rfl, rfl, rfl⟩ rfl (fun _ => ⟨Nat.zero_le _, fun _ => ⟨rfl, rfl⟩⟩)
      (.of_eq rfl))
  · split
    · exact .accept (.queue ⟨rfl, rfl, rfl, rfl, rfl, rfl, rfl⟩ rfl (fun ⟨a, _⟩ => ⟨a, fun off => nomatch off⟩)
        (.of_eq rfl))
    · exact .refuse _ _

theorem timerWrite (s : State) (p : TimerParams) : Replied s (s.timerWrite p) := by
  unfold State.timerWrite
  split
  · exact .refuseWith _ _ _
  · exact .accept (.data ⟨rfl, rfl, rfl, rfl, rfl, rfl, rfl⟩ rfl rfl rfl rfl (.of_eq rfl))

end Replied

end Sys2Proof.Machine
end

