-- ==== Sys2Proof/Laws/Commands.lean ====
section
/-! SUPPORT. Every command answers a next state, and every command that is not a start works on the part in the sense of
Laws/Works.lean. What an ORDER that the part takes comes to. -/

namespace Sys2Proof.Machine

/-! ## The shared form -/

theorem event_held (s : State) (f : State → State) (e : s.resetInput = true) : event s f = .next s := by
  simp [event, e]

theorem event_free (s : State) (f : State → State) (e : s.resetInput = false) : event s f = .next (f s) := by
  simp [event, e]

theorem event_works {q : Given} (s : State) (f : State → State) (w : State.Works q s (f s)) :
    ∃ t, event s f = .next t ∧ State.Works q s t := by
  refine ⟨_, rfl, ?_⟩
  split
  · exact .same s
  · exact w

/-- An ORDER the part takes is carried out and then answered. -/
theorem order_taken (s : State) (o : OrderHead) (code : Byte) (body : State → State × Reply) (e : s.Takes o) :
    order s o code body =
      .next ((body (s.received .uplink)).1.answer o code (body (s.received .uplink)).2) := by
  have c : (s.received .uplink).consumes o = true := e.2
  simp [order, event, State.takeOrder, e.1, c]

/-- An ORDER the part does not consume sets an indicator and does nothing else. -/
theorem order_dropped (s : State) (o : OrderHead) (code : Byte) (body : State → State × Reply)
    (free : s.resetInput = false) (e : s.consumes o = false) :
    order s o code body = .next ((s.received .uplink).dropOrder o) := by
  have c : (s.received .uplink).consumes o = false := e
  simp [order, event, State.takeOrder, free, c]

theorem answer_works (s : State) (o : OrderHead) (code : Byte) (r : Reply) :
    State.Works .noDemand s (s.answer o code r) :=
  .give _ _ _ fun x => nomatch x

theorem dropOrder_works {q : Given} (s : State) (o : OrderHead) : State.Works q s (s.dropOrder o) := by
  unfold State.dropOrder
  split <;> exact State.Works.indicate _ _

/-- A bound may be widened. -/
theorem State.Works.widen {p q : Given} (wide : ∀ x, p.allows x → q.allows x) {s t : State} (w : State.Works p s t) :
    State.Works q s t := by
  have gives : ∀ {s t : State}, State.Gives p s t → State.Gives q s t :=
    fun ⟨n, e, ok⟩ => ⟨n, e, fun x m => wide x (ok x m)⟩
  induction w with
  | same s => exact .same s
  | andThen _ _ a b => exact a.andThen b
  | acts a => exact .acts a
  | hoist s h r x => exact .hoist s h r x
  | data f h r l o g => exact .data f h r l o (gives g)
  | queue f h r g => exact .queue f h r (gives g)
  | latched s x => exact .latched s x
  | mask s x y => exact .mask s x y
  | give s p f ok => exact .give s p f (wide _ ok)

theorem State.Works.wider {s t : State} (w : State.Works .requests s t) : State.Works .noDemand s t :=
  w.widen (p := .requests) (q := .noDemand) fun _ x _ => x.2

theorem State.Works.widest {q : Given} {s t : State} (w : State.Works q s t) : State.Works .any s t :=
  w.widen (q := .any) fun _ _ => trivial

theorem order_works (s : State) (o : OrderHead) (code : Byte) (body : State → State × Reply)
    (each : ∀ s, Replied s (body s)) : ∃ t, order s o code body = .next t ∧ State.Works .noDemand s t := by
  refine event_works s _ ?_
  unfold State.takeOrder
  dsimp only
  split
  · exact ((State.Works.received s .uplink).andThen (each _).works.wider).andThen (answer_works _ _ _ _)
  · exact (State.Works.received s .uplink).andThen (dropOrder_works _ _)

/-- An ORDER the part takes: one ANSWER, after the requests it makes; refused, it changes nothing else. -/
theorem order_answers (s : State) (o : OrderHead) (code : Byte) (body : State → State × Reply)
    (each : ∀ s, Replied s (body s)) (e : s.Takes o) :
    ∃ t r d data new, order s o code body = .next t ∧
      t.outbox = s.outbox ++ new ++ [(.uplink, answerFrame s o code r d data)] ∧ (∀ x ∈ new, x.1 = .field) ∧
      (r ≠ .accepted → t = s.answered o code r d data ∧ data = []) := by
  obtain ⟨w, no⟩ := each (s.received .uplink)
  obtain ⟨new, eq, all⟩ := w.gives
  have strap : (body (s.received .uplink)).1.strapAddress = s.strapAddress := w.frame.2.2.2
  refine ⟨_, (body (s.received .uplink)).2.result, (body (s.received .uplink)).2.detail,
    (body (s.received .uplink)).2.data, new, order_taken s o code body e, ?_, fun x m => (all x m).1, fun x => ?_⟩
  · simp only [State.answer, State.give, answerFrame, strap, eq]
    rfl
  · have y := no x
    refine ⟨?_, y.2⟩
    rw [y.1]
    rfl

/-- An expiry that happens. -/
theorem expiry_due (s : State) {timer : Option Nat} {e : Nat} (f : State → State) (runs : timer = some e)
    (reached : e ≤ s.now) : expiry s timer f = f s := by simp [expiry, due, runs, reached]

/-- An expiry that does not happen: the timer is stopped, or has not reached its expiry. -/
theorem expiry_not (s : State) {timer : Option Nat} (f : State → State) (early : ∀ e, timer = some e → s.now < e) :
    expiry s timer f = s := by
  cases timer with
  | none => rfl
  | some e => simp [expiry, due, Nat.not_le.2 (early e rfl)]

/-! ## Every command that is not a start -/

/-- The commands whose effect may give a DEMAND to the field port. -/
def Demands (i : Instr) : Prop := (∃ a m v, i = .demand a m v) ∨ ∃ h, i = .demandAgeExpiry h

theorem kindShuttleReq_ne : kindShuttleReq ≠ kindDemand := by decide

/-- A frame that passes for its unknown kind is no DEMAND. -/
theorem passed_kind (p : Port) (f : Frame) (e : frameFate p f = .passed) : f.kind ≠ kindDemand := by
  intro k
  have : knownKind f.kind = true := by rw [k]; decide
  unfold frameFate at e
  split at e
  · cases e
  · simp only [this] at e
    repeat' split at e
    all_goals simp_all

section

open State.Works

variable {q : Given} (s : State)

theorem partialFrameDiscard_works (p : Port) :
    ∃ t, execPartialFrameDiscard p s = .next t ∧ State.Works .noDemand s t :=
  event_works s _ ((receiving s p).andThen (indicate _ _))

theorem surveyTimerExpiry_works (l : LandingId) :
    ∃ t, execSurveyTimerExpiry l s = .next t ∧ State.Works .noDemand s t :=
  event_works s _ (State.Works.expiry _ _ _ fun _ => surveyFailure _ _)

theorem reportAgeExpiry_works (h : HoistId) : ∃ t, execReportAgeExpiry h s = .next t ∧ State.Works .noDemand s t :=
  event_works s _ (State.Works.expiry _ _ _ fun _ => lapse _ _)

theorem framePassThrough_works (p : Port) (f : Frame) :
    ∃ t, execFramePassThrough p f s = .next t ∧ State.Works .noDemand s t := by
  refine event_works s _ ?_
  try dsimp only
  split
  · rename_i e
    exact (received s p).andThen (.give _ _ _ fun _ => passed_kind p f e)
  · exact .same s
  · exact .same s

theorem frameDropped_works (p : Port) (f : Frame) :
    ∃ t, execFrameDropped p f s = .next t ∧ State.Works .noDemand s t := by
  refine event_works s _ ?_
  try dsimp only
  split
  · exact (received s p).andThen (indicate _ _)
  · exact .same s
  · exact .same s

theorem unknownOrder_works (o : OrderHead) (c : Byte) (ps : List Byte) :
    ∃ t, execUnknownOrder o c ps s = .next t ∧ State.Works .noDemand s t := by
  refine event_works s _ ?_
  try dsimp only
  split
  · split
    · exact ((received s .uplink).andThen (indicate _ _)).andThen (answer_works _ _ _ _)
    · exact (received s .uplink).andThen (dropOrder_works _ _)
  · exact .same s

theorem orderDropped_works (o : OrderHead) (c : Byte) (ps : List Byte) :
    ∃ t, execOrderDropped o c ps s = .next t ∧ State.Works .noDemand s t := by
  refine event_works s _ ?_
  try dsimp only
  split
  · exact .same s
  · exact (received s .uplink).andThen (dropOrder_works _ _)

theorem demand_works (a m : Byte) (v : Half) : ∃ t, execDemand a m v s = .next t ∧ State.Works .any s t := by
  refine event_works s _ ?_
  try dsimp only
  split
  · exact (received s .uplink).andThen (indicate _ _)
  · split
    · exact ((received s .uplink).andThen (superviseDemand _ _ _)).andThen (restartDemandTimer _ _)
    · exact (received s .uplink).andThen (indicate _ _)

theorem report_works (a : Byte) (w : ReportWire) : ∃ t, execReport a w s = .next t ∧ State.Works .noDemand s t := by
  refine event_works s _ ?_
  try dsimp only
  have up : ∀ (s : State) (f : Frame), State.Works .noDemand s (s.give .uplink f) := fun s f =>
    .give s _ f fun x => nomatch x
  split
  · exact (received s .field).andThen (indicate _ _)
  · split
    · exact ((received s .field).andThen (reportPath _ _ _)).andThen (up _ _)
    · exact (received s .field).andThen (up _ _)

theorem shuttleReport_works (a : Byte) (w : ShuttleWire) :
    ∃ t, execShuttleReport a w s = .next t ∧ State.Works .noDemand s t := by
  refine event_works s _ ?_
  try dsimp only
  split
  · exact (received s .field).andThen (indicate _ _)
  · split
    · exact (received s .field).andThen (indicate _ _)
    · exact ((received s .field).andThen (shuttlePath _ _ _)).andThen (.give _ _ _ fun x => nomatch x)

theorem handoverTimerExpiry_works (h : HoistId) :
    ∃ t, execHandoverTimerExpiry h s = .next t ∧ State.Works .noDemand s t := by
  refine event_works s _ ?_
  try dsimp only
  split
  · exact State.Works.expiry _ _ _ fun t => handoverTimeout _ _ _
  · exact .same s

theorem demandAgeExpiry_works (h : HoistId) :
    ∃ t, execDemandAgeExpiry h s = .next t ∧ State.Works .any s t := by
  refine event_works s _ ?_
  try dsimp only
  split
  · exact takeSecond _ _
  · exact State.Works.expiry _ _ _ fun t =>
      (((State.Works.acts (State.actOnStale_acts t h)).andThen (latch _ _)).andThen (superviseDemand _ _ _)).andThen
        (restartDemandTimer _ _)

theorem engageTimeout_works (h : HoistId) : ∃ t, execEngageTimeout h s = .next t ∧ State.Works .noDemand s t := by
  refine event_works s _ ?_
  try dsimp only
  split
  · exact State.Works.expiry _ _ _ fun t => (enter _ _ _).andThen (latch _ _)
  · exact .same s

theorem parkTimeout_works (h : HoistId) : ∃ t, execParkTimeout h s = .next t ∧ State.Works .noDemand s t := by
  refine event_works s _ ?_
  try dsimp only
  split
  · exact takeSecond _ _
  · split
    · exact State.Works.expiry _ _ _ fun t => .acts (State.trip_acts _ _ _)
    · exact .same s

theorem proofTimerExpiry_works (h : HoistId) :
    ∃ t, execProofTimerExpiry h s = .next t ∧ State.Works .noDemand s t := by
  refine event_works s _ ?_
  try dsimp only
  split
  · exact State.Works.expiry _ _ _ fun t => (enter _ _ _).andThen (latch _ _)
  · exact .same s

theorem secondTick_works : ∃ t, execSecondTick s = .next t ∧ State.Works .noDemand s t :=
  event_works s _ (.andThen (t := { s with seconds := nextSeconds s.seconds, now := max s.now s.nextSecond, nextSecond := s.nextSecond + 1000 })
    (.data ⟨rfl, rfl, rfl, rfl, rfl, rfl, rfl⟩ rfl rfl rfl rfl (.of_eq rfl)) (.acts (State.evaluateAll_acts _)))

theorem landingWrite_works (o : OrderHead) (l : Byte) (d : Word) (n m x y : Byte) :
    ∃ t, execLandingWrite o l d n m x y s = .next t ∧ State.Works .noDemand s t :=
  order_works s o _ _ fun s => .check (.landingRemove s l) (.landingWrite s _ _ _ _ _ _)

theorem allStop_works (o : OrderHead) : ∃ t, execAllStop o s = .next t ∧ State.Works .noDemand s t := by
  unfold execAllStop
  split
  · exact event_works s _ ((received s .uplink).andThen (Replied.allStop _).works.wider)
  · exact order_works s o _ _ fun s => .allStop s

end

/-- Every command that is not a start answers a next state and works on the part, giving a DEMAND only where the command is
one or is the expiry that injects one. -/
theorem exec_works (i : Instr) (s : State) (start : ¬Starts i) :
    ∃ t, exec i s = .next t ∧ State.Works .any s t ∧ (¬Demands i → State.Works .noDemand s t) := by
  have quiet : (∃ t, exec i s = .next t ∧ State.Works .noDemand s t) →
      ∃ t, exec i s = .next t ∧ State.Works .any s t ∧ (¬Demands i → State.Works .noDemand s t) :=
    fun ⟨t, e, w⟩ => ⟨t, e, w.widest, fun _ => w⟩
  cases i with
  | powerOn x => exact absurd (.inl ⟨_, rfl⟩) start
  | resetInputAssert => exact absurd (.inr (.inl rfl)) start
  | resetInputRelease x => exact absurd (.inr (.inr (.inl ⟨_, rfl⟩))) start
  | restart o x => exact absurd (.inr (.inr (.inr ⟨_, _, rfl⟩))) start
  | demand a m v =>
    obtain ⟨t, e, w⟩ := demand_works s a m v
    exact ⟨t, e, w, fun n => absurd (.inl ⟨_, _, _, rfl⟩) n⟩
  | demandAgeExpiry h =>
    obtain ⟨t, e, w⟩ := demandAgeExpiry_works s h
    exact ⟨t, e, w, fun n => absurd (.inr ⟨_, rfl⟩) n⟩
  | partialFrameDiscard p =>
    exact quiet (partialFrameDiscard_works s p)
  | frameDropped p f => exact quiet (frameDropped_works s p f)
  | framePassThrough p f => exact quiet (framePassThrough_works s p f)
  | report a w => exact quiet (report_works s a w)
  | shuttleReport a w => exact quiet (shuttleReport_works s a w)
  | handoverTimerExpiry h => exact quiet (handoverTimerExpiry_works s h)
  | surveyTimerExpiry l => exact quiet (surveyTimerExpiry_works s l)
  | reportAgeExpiry h => exact quiet (reportAgeExpiry_works s h)
  | engageTimeout h => exact quiet (engageTimeout_works s h)
  | parkTimeout h => exact quiet (parkTimeout_works s h)
  | proofTimerExpiry h => exact quiet (proofTimerExpiry_works s h)
  | secondTick => exact quiet (secondTick_works s)
  | unknownOrder o c ps => exact quiet (unknownOrder_works s o c ps)
  | orderDropped o c ps => exact quiet (orderDropped_works s o c ps)
  | landingWrite o l d n m x y => exact quiet (landingWrite_works s o l d n m x y)
  | allStop o => exact quiet (allStop_works s o)
  | shaftWrite o => exact quiet (order_works s o _ _ fun s => .shaftWrite s _ _ _ _)
  | zoneWriteEntry o => exact quiet (order_works s o _ _ fun s => .zoneWriteEntry s _ _ _ _ _ _)
  | zoneWriteCount o => exact quiet (order_works s o _ _ fun s => .zoneWriteCount s _ _)
  | zoneCommit o => exact quiet (order_works s o _ _ fun s => .zoneCommit s _)
  | zoneQuery o => exact quiet (order_works s o _ _ fun s => .zoneQuery s _ _ _)
  | landingRemove o => exact quiet (order_works s o _ _ fun s => .landingRemove s _)
  | hoistConfig o => exact quiet (order_works s o _ _ fun s => .hoistConfig s _ _)
  | hoistQuery o => exact quiet (order_works s o _ _ fun s => .hoistQuery s _)
  | engage o => exact quiet (order_works s o _ _ fun s => .engage s _)
  | park o => exact quiet (order_works s o _ _ fun s => .park s _)
  | move o => exact quiet (order_works s o _ _ fun s => .move s _ _ _)
  | abort o => exact quiet (order_works s o _ _ fun s => .abort s _)
  | resetHoist o => exact quiet (order_works s o _ _ fun s => .resetHoist s _)
  | ceiling o => exact quiet (order_works s o _ _ fun s => .ceiling s _ _)
  | groupWrite o => exact quiet (order_works s o _ _ fun s => .groupWrite s _ _)
  | groupCeiling o => exact quiet (order_works s o _ _ fun s => .groupCeiling s _ _)
  | groupStop o => exact quiet (order_works s o _ _ fun s => .groupStop s _)
  | transfer o => exact quiet (order_works s o _ _ fun s => .transfer s _ _ _ _)
  | abortTransfer o => exact quiet (order_works s o _ _ fun s => .abortTransfer s _)
  | resolve o => exact quiet (order_works s o _ _ fun s => .resolve s _ _)
  | blockSlot o => exact quiet (order_works s o _ _ fun s => .blockSlot s _ _)
  | unblockSlot o => exact quiet (order_works s o _ _ fun s => .unblockSlot s _ _)
  | landingQuery o => exact quiet (order_works s o _ _ fun s => .landingQuery s _)
  | declareMass o => exact quiet (order_works s o _ _ fun s => .declareMass s _ _ _ _ _)
  | removeMass o => exact quiet (order_works s o _ _ fun s => .removeMass s _)
  | verify o => exact quiet (order_works s o _ _ fun s => .verify s _)
  | releaseScope o => exact quiet (order_works s o _ _ fun s => .releaseScope s _)
  | admitScope o => exact quiet (order_works s o _ _ fun s => .admitScope s _)
  | massQuery o => exact quiet (order_works s o _ _ fun s => .massQuery s _)
  | tallyQuery o => exact quiet (order_works s o _ _ fun s => .acceptData s _)
  | prove o => exact quiet (order_works s o _ _ fun s => .prove s _)
  | proofWrite o => exact quiet (order_works s o _ _ fun s => .proofWrite s _ _)
  | maskWrite o => exact quiet (order_works s o _ _ fun s => .maskWrite s _)
  | scopeOptions o => exact quiet (order_works s o _ _ fun s => .scopeOptions s _ _ _)
  | status o => exact quiet (order_works s o _ _ fun s => .status s)
  | readRecord o => exact quiet (order_works s o _ _ fun s => .readRecord s)
  | logControl o => exact quiet (order_works s o _ _ fun s => .logControl s _)
  | timerWrite o => exact quiet (order_works s o _ _ fun s => .timerWrite s _)

end Sys2Proof.Machine
end

