-- ==== Sys2Proof/Laws/PerInstr.lean ====
section
/-! SUPPORT. The family Wire: the frame a well-formed command arrives as is one the wire carries (R173), and R174 and R175 give
it the fate of the command's row. -/

namespace Sys2Proof.Laws.Wire

open Sys2Proof.Machine

/-- What the family says of a command. -/
def Statement (i : Instr) : Prop :=
  ∀ (strap : Straps) (p : Port) (f : Frame), i.wellFormed strap = true → commandFrame i = some (p, f) →
    f.fits = true ∧
      match frameFate p f with
      | .dropped _ => i = .frameDropped p f
      | .passed => i = .framePassThrough p f
      | .handled => True

theorem checkHolds_makeFrame (a k : Byte) (x : List Byte) : checkHolds (makeFrame a k x) = true := by
  simp [checkHolds, makeFrame]

/-- A frame of a known kind with a live address, on its own port and of a length that suits, is handled. -/
theorem handled {p : Port} {a k : Byte} {x : List Byte} (known : knownKind k = true) (live : liveAddress a = true)
    (right : rightDirection p k = true) (suits : lengthSuits k x = true) : frameFate p (makeFrame a k x) = .handled := by
  have live : ¬a = 0 := by simpa only [liveAddress, bne_iff_ne] using live
  unfold frameFate
  rw [checkHolds_makeFrame, if_neg (by decide)]
  simp only [makeFrame, known, right, suits, Bool.true_eq_false, ↓reduceIte, if_neg live]

/-- Every ORDER frame a command makes. -/
theorem order {i : Instr} {o : OrderHead} {code : Byte} {params : List Byte}
    (frame : commandFrame i = orderFrame o code params)
    (fits : ∀ strap, i.wellFormed strap = true → liveAddress o.address = true ∧ params.length ≤ 253) : Statement i := by
  intro strap p f wf e
  obtain ⟨live, short⟩ := fits strap wf
  rw [frame] at e
  simp only [orderFrame, Option.some.injEq, Prod.mk.injEq] at e
  obtain ⟨rfl, rfl⟩ := e
  have h : frameFate .uplink (makeFrame o.address kindOrder (o.tag :: code :: params)) = .handled :=
    handled (by decide) live (by decide) (by
      simp [lengthSuits, kindOrder, kindDemand, kindReport, kindProofReq, kindShuttleReq, kindShuttleReport])
  rw [h]
  refine ⟨?_, trivial⟩
  refine decide_eq_true ?_
  simp only [makeFrame, List.length_cons]
  omega

/-- The commands that are no frame. -/
theorem noFrame {i : Instr} (e : commandFrame i = none) : Statement i := by
  intro strap p f _ x
  rw [e] at x
  cases x

theorem powerOn (straps : Straps) : Statement (.powerOn straps) := noFrame rfl

theorem resetInputAssert : Statement (.resetInputAssert) := noFrame rfl

theorem resetInputRelease (straps : Straps) : Statement (.resetInputRelease straps) := noFrame rfl

theorem partialFrameDiscard (port : Port) : Statement (.partialFrameDiscard port) := noFrame rfl

theorem frameDropped (port : Port) (f : Frame) : Statement (.frameDropped port f) := by
  intro strap q g wf e
  simp only [commandFrame, Option.some.injEq, Prod.mk.injEq] at e
  obtain ⟨rfl, rfl⟩ := e
  simp only [Instr.wellFormed, Bool.and_eq_true] at wf
  refine ⟨wf.1, ?_⟩
  have x := wf.2
  split
  · rfl
  · rename_i y; rw [y] at x; cases x
  · trivial

theorem framePassThrough (port : Port) (f : Frame) : Statement (.framePassThrough port f) := by
  intro strap q g wf e
  simp only [commandFrame, Option.some.injEq, Prod.mk.injEq] at e
  obtain ⟨rfl, rfl⟩ := e
  simp only [Instr.wellFormed, Bool.and_eq_true, beq_iff_eq] at wf
  rw [wf.2]
  exact ⟨wf.1, rfl⟩

theorem demand (address mode : Byte) (velocity : Half) : Statement (.demand address mode velocity) := by
  intro strap q g wf e
  simp only [commandFrame, Option.some.injEq, Prod.mk.injEq] at e
  obtain ⟨rfl, rfl⟩ := e
  rw [handled (by decide) wf (by decide) (by simp [lengthSuits, be16])]
  exact ⟨by simp [Frame.fits, makeFrame, be16], trivial⟩

theorem report (address : Byte) (w : ReportWire) : Statement (.report address w) := by
  intro strap q g wf e
  simp only [commandFrame, Option.some.injEq, Prod.mk.injEq] at e
  obtain ⟨rfl, rfl⟩ := e
  rw [handled (by decide) wf (by decide) (by simp [lengthSuits, reportBytes, be16, be32, kindReport, kindDemand])]
  exact ⟨by simp [Frame.fits, makeFrame, reportBytes, be16, be32], trivial⟩

theorem shuttleReport (address : Byte) (w : ShuttleWire) : Statement (.shuttleReport address w) := by
  intro strap q g wf e
  simp only [commandFrame, Option.some.injEq, Prod.mk.injEq] at e
  obtain ⟨rfl, rfl⟩ := e
  simp only [Instr.wellFormed, Bool.and_eq_true, decide_eq_true_eq] at wf
  have count : (byte w.survey.length).toNat = w.survey.length := by
    simp only [byte, BitVec.toNat_ofNat]
    omega
  rw [handled (by decide) wf.1 (by decide) (by
    simp [lengthSuits, shuttleBytes, kindShuttleReport, kindDemand, kindReport, kindProofReq, kindShuttleReq, count,
      wf.2])]
  refine ⟨?_, trivial⟩
  simp only [Frame.fits, makeFrame, shuttleBytes, List.length_cons, List.length_append, List.length_nil,
    decide_eq_true_eq]
  omega

theorem handoverTimerExpiry (h : HoistId) : Statement (.handoverTimerExpiry h) := noFrame rfl

theorem surveyTimerExpiry (l : LandingId) : Statement (.surveyTimerExpiry l) := noFrame rfl

theorem reportAgeExpiry (h : HoistId) : Statement (.reportAgeExpiry h) := noFrame rfl

theorem demandAgeExpiry (h : HoistId) : Statement (.demandAgeExpiry h) := noFrame rfl

theorem engageTimeout (h : HoistId) : Statement (.engageTimeout h) := noFrame rfl

theorem parkTimeout (h : HoistId) : Statement (.parkTimeout h) := noFrame rfl

theorem proofTimerExpiry (h : HoistId) : Statement (.proofTimerExpiry h) := noFrame rfl

theorem secondTick : Statement (.secondTick) := noFrame rfl

theorem unknownOrder (o : OrderHead) (code : Byte) (params : List Byte) : Statement (.unknownOrder o code params) := by
  refine order rfl fun strap wf => ?_
  simp only [Instr.wellFormed, orderFits, Bool.and_eq_true, decide_eq_true_eq] at wf
  exact wf.1.1

theorem orderDropped (o : OrderHead) (code : Byte) (params : List Byte) : Statement (.orderDropped o code params) := by
  refine order rfl fun strap wf => ?_
  simp only [Instr.wellFormed, orderFits, Bool.and_eq_true, decide_eq_true_eq] at wf
  exact wf.1.1

theorem shaftWrite (o : OrderHead) (floor tally : Word) (guard separation : Half) : Statement (.shaftWrite o floor tally guard separation) :=
  order rfl fun _ wf => ⟨wf, Nat.le_of_ble_eq_true rfl⟩

theorem zoneWriteEntry (o : OrderHead) (compartment index : Byte) (upper : Word) (ceiling : Half) (kind landing : Byte) : Statement (.zoneWriteEntry o compartment index upper ceiling kind landing) :=
  order rfl fun _ wf => ⟨wf, Nat.le_of_ble_eq_true rfl⟩

theorem zoneWriteCount (o : OrderHead) (compartment count : Byte) : Statement (.zoneWriteCount o compartment count) :=
  order rfl fun _ wf => ⟨wf, Nat.le_of_ble_eq_true rfl⟩

theorem zoneCommit (o : OrderHead) (compartment : Byte) : Statement (.zoneCommit o compartment) :=
  order rfl fun _ wf => ⟨wf, Nat.le_of_ble_eq_true rfl⟩

theorem zoneQuery (o : OrderHead) (compartment table index : Byte) : Statement (.zoneQuery o compartment table index) :=
  order rfl fun _ wf => ⟨wf, Nat.le_of_ble_eq_true rfl⟩

theorem landingWrite (o : OrderHead) (landing : Byte) (sill : Word) (slots mode served station : Byte) : Statement (.landingWrite o landing sill slots mode served station) := by
  refine order rfl fun strap wf => ?_
  simp only [Instr.wellFormed, Bool.and_eq_true] at wf
  exact ⟨wf.1, Nat.le_of_ble_eq_true rfl⟩

theorem landingRemove (o : OrderHead) (landing : Byte) (sill : Word) (mode served station : Byte) : Statement (.landingRemove o landing sill mode served station) :=
  order rfl fun _ wf => ⟨wf, Nat.le_of_ble_eq_true rfl⟩

theorem hoistConfig (o : OrderHead) (hoist : Byte) (p : HoistParams) : Statement (.hoistConfig o hoist p) :=
  order rfl fun _ wf => ⟨wf, Nat.le_of_ble_eq_true rfl⟩

theorem hoistQuery (o : OrderHead) (hoist : Byte) : Statement (.hoistQuery o hoist) :=
  order rfl fun _ wf => ⟨wf, Nat.le_of_ble_eq_true rfl⟩

theorem engage (o : OrderHead) (hoist : Byte) : Statement (.engage o hoist) :=
  order rfl fun _ wf => ⟨wf, Nat.le_of_ble_eq_true rfl⟩

theorem park (o : OrderHead) (hoist : Byte) : Statement (.park o hoist) :=
  order rfl fun _ wf => ⟨wf, Nat.le_of_ble_eq_true rfl⟩

theorem move (o : OrderHead) (hoist : Byte) (target : Word) (parkOnArrival : Byte) : Statement (.move o hoist target parkOnArrival) :=
  order rfl fun _ wf => ⟨wf, Nat.le_of_ble_eq_true rfl⟩

theorem abort (o : OrderHead) (hoist : Byte) : Statement (.abort o hoist) :=
  order rfl fun _ wf => ⟨wf, Nat.le_of_ble_eq_true rfl⟩

theorem resetHoist (o : OrderHead) (hoist : Byte) : Statement (.resetHoist o hoist) :=
  order rfl fun _ wf => ⟨wf, Nat.le_of_ble_eq_true rfl⟩

theorem ceiling (o : OrderHead) (hoist : Byte) (value : Half) : Statement (.ceiling o hoist value) :=
  order rfl fun _ wf => ⟨wf, Nat.le_of_ble_eq_true rfl⟩

theorem groupWrite (o : OrderHead) (group set : Byte) : Statement (.groupWrite o group set) :=
  order rfl fun _ wf => ⟨wf, Nat.le_of_ble_eq_true rfl⟩

theorem groupCeiling (o : OrderHead) (group : Byte) (value : Half) : Statement (.groupCeiling o group value) :=
  order rfl fun _ wf => ⟨wf, Nat.le_of_ble_eq_true rfl⟩

theorem groupStop (o : OrderHead) (group : Byte) : Statement (.groupStop o group) :=
  order rfl fun _ wf => ⟨wf, Nat.le_of_ble_eq_true rfl⟩

theorem allStop (o : OrderHead) : Statement (.allStop o) :=
  order rfl fun _ wf => ⟨wf, Nat.le_of_ble_eq_true rfl⟩

theorem transfer (o : OrderHead) (hoist kind selector mass : Byte) : Statement (.transfer o hoist kind selector mass) :=
  order rfl fun _ wf => ⟨wf, Nat.le_of_ble_eq_true rfl⟩

theorem abortTransfer (o : OrderHead) (hoist : Byte) : Statement (.abortTransfer o hoist) :=
  order rfl fun _ wf => ⟨wf, Nat.le_of_ble_eq_true rfl⟩

theorem resolve (o : OrderHead) (hoist outcome : Byte) : Statement (.resolve o hoist outcome) :=
  order rfl fun _ wf => ⟨wf, Nat.le_of_ble_eq_true rfl⟩

theorem blockSlot (o : OrderHead) (landing slot : Byte) : Statement (.blockSlot o landing slot) :=
  order rfl fun _ wf => ⟨wf, Nat.le_of_ble_eq_true rfl⟩

theorem unblockSlot (o : OrderHead) (landing slot : Byte) : Statement (.unblockSlot o landing slot) :=
  order rfl fun _ wf => ⟨wf, Nat.le_of_ble_eq_true rfl⟩

theorem landingQuery (o : OrderHead) (landing : Byte) : Statement (.landingQuery o landing) :=
  order rfl fun _ wf => ⟨wf, Nat.le_of_ble_eq_true rfl⟩

theorem declareMass (o : OrderHead) (mass : Byte) (nominal : Half) (kind place slot : Byte) : Statement (.declareMass o mass nominal kind place slot) :=
  order rfl fun _ wf => ⟨wf, Nat.le_of_ble_eq_true rfl⟩

theorem removeMass (o : OrderHead) (mass : Byte) : Statement (.removeMass o mass) :=
  order rfl fun _ wf => ⟨wf, Nat.le_of_ble_eq_true rfl⟩

theorem verify (o : OrderHead) (landing : Byte) : Statement (.verify o landing) :=
  order rfl fun _ wf => ⟨wf, Nat.le_of_ble_eq_true rfl⟩

theorem releaseScope (o : OrderHead) (compartment : Byte) : Statement (.releaseScope o compartment) :=
  order rfl fun _ wf => ⟨wf, Nat.le_of_ble_eq_true rfl⟩

theorem admitScope (o : OrderHead) (compartment : Byte) : Statement (.admitScope o compartment) :=
  order rfl fun _ wf => ⟨wf, Nat.le_of_ble_eq_true rfl⟩

theorem massQuery (o : OrderHead) (mass : Byte) : Statement (.massQuery o mass) :=
  order rfl fun _ wf => ⟨wf, Nat.le_of_ble_eq_true rfl⟩

theorem tallyQuery (o : OrderHead) : Statement (.tallyQuery o) :=
  order rfl fun _ wf => ⟨wf, Nat.le_of_ble_eq_true rfl⟩

theorem prove (o : OrderHead) (hoist : Byte) : Statement (.prove o hoist) :=
  order rfl fun _ wf => ⟨wf, Nat.le_of_ble_eq_true rfl⟩

theorem proofWrite (o : OrderHead) (hours ceiling : Half) : Statement (.proofWrite o hours ceiling) :=
  order rfl fun _ wf => ⟨wf, Nat.le_of_ble_eq_true rfl⟩

theorem maskWrite (o : OrderHead) (set : Half) : Statement (.maskWrite o set) :=
  order rfl fun _ wf => ⟨wf, Nat.le_of_ble_eq_true rfl⟩

theorem scopeOptions (o : OrderHead) (compartment scope stale : Byte) : Statement (.scopeOptions o compartment scope stale) :=
  order rfl fun _ wf => ⟨wf, Nat.le_of_ble_eq_true rfl⟩

theorem status (o : OrderHead) : Statement (.status o) :=
  order rfl fun _ wf => ⟨wf, Nat.le_of_ble_eq_true rfl⟩

theorem readRecord (o : OrderHead) : Statement (.readRecord o) :=
  order rfl fun _ wf => ⟨wf, Nat.le_of_ble_eq_true rfl⟩

theorem logControl (o : OrderHead) (setting : Byte) : Statement (.logControl o setting) :=
  order rfl fun _ wf => ⟨wf, Nat.le_of_ble_eq_true rfl⟩

theorem timerWrite (o : OrderHead) (p : TimerParams) : Statement (.timerWrite o p) :=
  order rfl fun _ wf => ⟨wf, Nat.le_of_ble_eq_true rfl⟩

theorem restart (o : OrderHead) (straps : Straps) : Statement (.restart o straps) :=
  order rfl fun _ wf => ⟨wf, Nat.le_of_ble_eq_true rfl⟩

end Sys2Proof.Laws.Wire
end

