-- ==== Sys2Proof/Laws/Reads.lean ====
section
/-! SUPPORT. Reading a hoist, a landing, a mass, a compartment or a group after an update that does not write it. -/

namespace Sys2Proof.Machine

variable (s : State)

@[simp] theorem State.landing_setHoist (h : HoistId) (r : Hoist) (j : LandingId) : (s.setHoist h r).landing j = s.landing j := rfl
@[simp] theorem State.mass_setHoist (h : HoistId) (r : Hoist) (n : MassId) : (s.setHoist h r).mass n = s.mass n := rfl
@[simp] theorem State.comp_setHoist (h : HoistId) (r : Hoist) (c0 : Compartment) : (s.setHoist h r).comp c0 = s.comp c0 := by cases c0 <;> rfl
@[simp] theorem State.group_setHoist (h : HoistId) (r : Hoist) (g : GroupId) : (s.setHoist h r).group g = s.group g := rfl

@[simp] theorem State.landing_modHoist (h : HoistId) (f : Hoist → Hoist) (j : LandingId) : (s.modHoist h f).landing j = s.landing j := rfl
@[simp] theorem State.mass_modHoist (h : HoistId) (f : Hoist → Hoist) (n : MassId) : (s.modHoist h f).mass n = s.mass n := rfl
@[simp] theorem State.comp_modHoist (h : HoistId) (f : Hoist → Hoist) (c0 : Compartment) : (s.modHoist h f).comp c0 = s.comp c0 := by cases c0 <;> rfl
@[simp] theorem State.group_modHoist (h : HoistId) (f : Hoist → Hoist) (g : GroupId) : (s.modHoist h f).group g = s.group g := rfl

@[simp] theorem State.landing_recompute (h : HoistId) (j : LandingId) : (s.recompute h).landing j = s.landing j := rfl
@[simp] theorem State.mass_recompute (h : HoistId) (n : MassId) : (s.recompute h).mass n = s.mass n := rfl
@[simp] theorem State.comp_recompute (h : HoistId) (c0 : Compartment) : (s.recompute h).comp c0 = s.comp c0 := by cases c0 <;> rfl
@[simp] theorem State.group_recompute (h : HoistId) (g : GroupId) : (s.recompute h).group g = s.group g := rfl

@[simp] theorem State.landing_enter (h : HoistId) (st : HoistState) (j : LandingId) : (s.enter h st).landing j = s.landing j := rfl
@[simp] theorem State.mass_enter (h : HoistId) (st : HoistState) (n : MassId) : (s.enter h st).mass n = s.mass n := rfl
@[simp] theorem State.comp_enter (h : HoistId) (st : HoistState) (c0 : Compartment) : (s.enter h st).comp c0 = s.comp c0 := by cases c0 <;> rfl
@[simp] theorem State.group_enter (h : HoistId) (st : HoistState) (g : GroupId) : (s.enter h st).group g = s.group g := rfl

@[simp] theorem State.hoist_setLanding (l : LandingId) (x : Landing) (k : HoistId) : (s.setLanding l x).hoist k = s.hoist k := rfl
@[simp] theorem State.mass_setLanding (l : LandingId) (x : Landing) (n : MassId) : (s.setLanding l x).mass n = s.mass n := rfl
@[simp] theorem State.comp_setLanding (l : LandingId) (x : Landing) (c0 : Compartment) : (s.setLanding l x).comp c0 = s.comp c0 := by cases c0 <;> rfl
@[simp] theorem State.group_setLanding (l : LandingId) (x : Landing) (g : GroupId) : (s.setLanding l x).group g = s.group g := rfl

@[simp] theorem State.hoist_modLanding (l : LandingId) (f : Landing → Landing) (k : HoistId) : (s.modLanding l f).hoist k = s.hoist k := rfl
@[simp] theorem State.mass_modLanding (l : LandingId) (f : Landing → Landing) (n : MassId) : (s.modLanding l f).mass n = s.mass n := rfl
@[simp] theorem State.comp_modLanding (l : LandingId) (f : Landing → Landing) (c0 : Compartment) : (s.modLanding l f).comp c0 = s.comp c0 := by cases c0 <;> rfl
@[simp] theorem State.group_modLanding (l : LandingId) (f : Landing → Landing) (g : GroupId) : (s.modLanding l f).group g = s.group g := rfl

@[simp] theorem State.hoist_setMass (m : MassId) (x : Mass) (k : HoistId) : (s.setMass m x).hoist k = s.hoist k := rfl
@[simp] theorem State.landing_setMass (m : MassId) (x : Mass) (j : LandingId) : (s.setMass m x).landing j = s.landing j := rfl
@[simp] theorem State.comp_setMass (m : MassId) (x : Mass) (c0 : Compartment) : (s.setMass m x).comp c0 = s.comp c0 := by cases c0 <;> rfl
@[simp] theorem State.group_setMass (m : MassId) (x : Mass) (g : GroupId) : (s.setMass m x).group g = s.group g := rfl

@[simp] theorem State.hoist_modMass (m : MassId) (f : Mass → Mass) (k : HoistId) : (s.modMass m f).hoist k = s.hoist k := rfl
@[simp] theorem State.landing_modMass (m : MassId) (f : Mass → Mass) (j : LandingId) : (s.modMass m f).landing j = s.landing j := rfl
@[simp] theorem State.comp_modMass (m : MassId) (f : Mass → Mass) (c0 : Compartment) : (s.modMass m f).comp c0 = s.comp c0 := by cases c0 <;> rfl
@[simp] theorem State.group_modMass (m : MassId) (f : Mass → Mass) (g : GroupId) : (s.modMass m f).group g = s.group g := rfl

@[simp] theorem State.hoist_setLatched (x : BitVec 13) (k : HoistId) : (s.setLatched x).hoist k = s.hoist k := rfl
@[simp] theorem State.landing_setLatched (x : BitVec 13) (j : LandingId) : (s.setLatched x).landing j = s.landing j := rfl
@[simp] theorem State.mass_setLatched (x : BitVec 13) (n : MassId) : (s.setLatched x).mass n = s.mass n := rfl
@[simp] theorem State.comp_setLatched (x : BitVec 13) (c0 : Compartment) : (s.setLatched x).comp c0 = s.comp c0 := by cases c0 <;> rfl
@[simp] theorem State.group_setLatched (x : BitVec 13) (g : GroupId) : (s.setLatched x).group g = s.group g := rfl

@[simp] theorem State.hoist_setMask (x : BitVec 13) (k : HoistId) : (s.setMask x).hoist k = s.hoist k := rfl
@[simp] theorem State.landing_setMask (x : BitVec 13) (j : LandingId) : (s.setMask x).landing j = s.landing j := rfl
@[simp] theorem State.mass_setMask (x : BitVec 13) (n : MassId) : (s.setMask x).mass n = s.mass n := rfl
@[simp] theorem State.comp_setMask (x : BitVec 13) (c0 : Compartment) : (s.setMask x).comp c0 = s.comp c0 := by cases c0 <;> rfl
@[simp] theorem State.group_setMask (x : BitVec 13) (g : GroupId) : (s.setMask x).group g = s.group g := rfl

@[simp] theorem State.hoist_latch (c : Category) (k : HoistId) : (s.latch c).hoist k = s.hoist k := rfl
@[simp] theorem State.landing_latch (c : Category) (j : LandingId) : (s.latch c).landing j = s.landing j := rfl
@[simp] theorem State.mass_latch (c : Category) (n : MassId) : (s.latch c).mass n = s.mass n := rfl
@[simp] theorem State.comp_latch (c : Category) (c0 : Compartment) : (s.latch c).comp c0 = s.comp c0 := by cases c0 <;> rfl
@[simp] theorem State.group_latch (c : Category) (g : GroupId) : (s.latch c).group g = s.group g := rfl

@[simp] theorem State.hoist_indicate (e : LinkError) (k : HoistId) : (s.indicate e).hoist k = s.hoist k := rfl
@[simp] theorem State.landing_indicate (e : LinkError) (j : LandingId) : (s.indicate e).landing j = s.landing j := rfl
@[simp] theorem State.mass_indicate (e : LinkError) (n : MassId) : (s.indicate e).mass n = s.mass n := rfl
@[simp] theorem State.comp_indicate (e : LinkError) (c0 : Compartment) : (s.indicate e).comp c0 = s.comp c0 := by cases c0 <;> rfl
@[simp] theorem State.group_indicate (e : LinkError) (g : GroupId) : (s.indicate e).group g = s.group g := rfl

@[simp] theorem State.hoist_give (p : Port) (f : Frame) (k : HoistId) : (s.give p f).hoist k = s.hoist k := rfl
@[simp] theorem State.landing_give (p : Port) (f : Frame) (j : LandingId) : (s.give p f).landing j = s.landing j := rfl
@[simp] theorem State.mass_give (p : Port) (f : Frame) (n : MassId) : (s.give p f).mass n = s.mass n := rfl
@[simp] theorem State.comp_give (p : Port) (f : Frame) (c0 : Compartment) : (s.give p f).comp c0 = s.comp c0 := by cases c0 <;> rfl
@[simp] theorem State.group_give (p : Port) (f : Frame) (g : GroupId) : (s.give p f).group g = s.group g := rfl

@[simp] theorem State.hoist_received (p : Port) (k : HoistId) : (s.received p).hoist k = s.hoist k := by
  cases p <;> rfl
@[simp] theorem State.hoist_receiving (p : Port) (k : HoistId) : (s.receiving p).hoist k = s.hoist k := by
  cases p <;> rfl
@[simp] theorem State.landing_received (p : Port) (j : LandingId) : (s.received p).landing j = s.landing j := by
  cases p <;> rfl
@[simp] theorem State.landing_receiving (p : Port) (j : LandingId) : (s.receiving p).landing j = s.landing j := by
  cases p <;> rfl
@[simp] theorem State.mass_received (p : Port) (n : MassId) : (s.received p).mass n = s.mass n := by
  cases p <;> rfl
@[simp] theorem State.mass_receiving (p : Port) (n : MassId) : (s.receiving p).mass n = s.mass n := by
  cases p <;> rfl
@[simp] theorem State.comp_received (p : Port) (c0 : Compartment) : (s.received p).comp c0 = s.comp c0 := by
  cases p <;> cases c0 <;> rfl
@[simp] theorem State.comp_receiving (p : Port) (c0 : Compartment) : (s.receiving p).comp c0 = s.comp c0 := by
  cases p <;> cases c0 <;> rfl
@[simp] theorem State.group_received (p : Port) (g : GroupId) : (s.received p).group g = s.group g := by
  cases p <;> rfl
@[simp] theorem State.group_receiving (p : Port) (g : GroupId) : (s.receiving p).group g = s.group g := by
  cases p <;> rfl

/-! ## Reading a landing, a mass or a compartment that is written -/

theorem State.landing_setLanding (l j : LandingId) (x : Landing) :
    (s.setLanding l x).landing j = if j = l then x else s.landing j := by
  unfold State.landing State.setLanding
  by_cases e : j = l
  · subst e
    simp
  · rw [if_neg e]
    exact Vector.getElem_set_ne l.isLt j.isLt fun x => e (Fin.ext x.symm)

theorem State.landing_modLanding (l j : LandingId) (f : Landing → Landing) :
    (s.modLanding l f).landing j = if j = l then f (s.landing l) else s.landing j := State.landing_setLanding ..

theorem State.mass_setMass (m n : MassId) (x : Mass) : (s.setMass m x).mass n = if n = m then x else s.mass n := by
  unfold State.mass State.setMass
  by_cases e : n = m
  · subst e
    simp
  · rw [if_neg e]
    exact Vector.getElem_set_ne m.isLt n.isLt fun x => e (Fin.ext x.symm)

theorem State.comp_setComp (c d : Compartment) (x : CompartmentRec) :
    (s.setComp c x).comp d = if d = c then x else s.comp d := by cases c <;> cases d <;> rfl

@[simp] theorem State.hoist_setComp (c : Compartment) (x : CompartmentRec) (k : HoistId) :
    (s.setComp c x).hoist k = s.hoist k := by cases c <;> rfl

@[simp] theorem State.landing_setComp (c : Compartment) (x : CompartmentRec) (j : LandingId) :
    (s.setComp c x).landing j = s.landing j := by cases c <;> rfl

@[simp] theorem State.mass_setComp (c : Compartment) (x : CompartmentRec) (n : MassId) :
    (s.setComp c x).mass n = s.mass n := by cases c <;> rfl

/-- Two writes of one item: the later stands. -/
@[simp] theorem State.setLanding_setLanding (l : LandingId) (a b : Landing) :
    (s.setLanding l a).setLanding l b = s.setLanding l b := by simp [State.setLanding]

@[simp] theorem State.setMass_setMass (m : MassId) (a b : Mass) : (s.setMass m a).setMass m b = s.setMass m b := by
  simp [State.setMass]

end Sys2Proof.Machine
end

