-- ==== Sys2Proof/Tests/Slice0.lean ====
section
/-! SUPPORT. Tests: what WellFormed refuses, frames written out from R173 to R186, the spec's worked figures, and for each
obligation with hypotheses a state and operands that meet them. Expected values are the spec's or worked by hand from it. -/

namespace Sys2Proof.Tests

set_option Elab.async false

open Sys2Proof Sys2Proof.Machine

/-! ## WellFormed: one ill-formed term for each check, refused -/

/-- A frame with a broken check, as it may arrive. -/
def brokenFrame : Frame := ⟨11, kindDemand, [1, 0, 0], 0⟩

/-- A whole frame of a kind the part does not know. -/
def strangeFrame : Frame := makeFrame 11 0x7F [1, 2]

/-- A DEMAND frame that the part handles. -/
def demandFrame : Frame := makeFrame 11 kindDemand [1, 0, 100]

/-- A payload longer than a length byte counts. -/
def longFrame : Frame := ⟨11, 0x7F, List.replicate 256 0, 0⟩

theorem test_wf_dropped_frame_fits : (Instr.frameDropped .uplink longFrame).wellFormed 9 = false := by decide +kernel

theorem test_wf_dropped_frame_is_dropped : (Instr.frameDropped .uplink demandFrame).wellFormed 9 = false := by
  decide +kernel

theorem test_wf_broken_frame_is_dropped : (Instr.frameDropped .uplink brokenFrame).wellFormed 9 = true := by
  decide +kernel

theorem test_wf_passed_frame_fits : (Instr.framePassThrough .uplink longFrame).wellFormed 9 = false := by decide +kernel

theorem test_wf_passed_frame_is_passed : (Instr.framePassThrough .uplink demandFrame).wellFormed 9 = false := by
  decide +kernel

theorem test_wf_demand_address : (Instr.demand 0 1 5).wellFormed 9 = false := by decide

theorem test_wf_report_address : (Instr.report 0 ⟨0, 0, 0, 0, 0, 0⟩).wellFormed 9 = false := by decide

theorem test_wf_shuttle_address : (Instr.shuttleReport 0 ⟨0, 0, 0, []⟩).wellFormed 9 = false := by decide

theorem test_wf_shuttle_survey : (Instr.shuttleReport 41 ⟨3, 0, 0, List.replicate 9 0⟩).wellFormed 9 = false := by decide

theorem test_wf_unknown_order_address : (Instr.unknownOrder ⟨0, 1⟩ 0xEE []).wellFormed 9 = false := by decide +kernel

theorem test_wf_unknown_order_length :
    (Instr.unknownOrder ⟨9, 1⟩ 0xEE (List.replicate 254 0)).wellFormed 9 = false := by decide +kernel

theorem test_wf_unknown_order_unknown : (Instr.unknownOrder ⟨9, 1⟩ 0x12 [1]).wellFormed 9 = false := by decide +kernel

theorem test_wf_unknown_order_own : (Instr.unknownOrder ⟨8, 1⟩ 0xEE []).wellFormed 9 = false := by decide +kernel

theorem test_wf_order_dropped_other : (Instr.orderDropped ⟨9, 1⟩ 0xEE []).wellFormed 9 = false := by decide +kernel

theorem test_wf_order_dropped_unknown : (Instr.orderDropped ⟨8, 1⟩ 0x12 [1]).wellFormed 9 = false := by decide +kernel

theorem test_wf_order_address : (Instr.status ⟨0, 1⟩).wellFormed 9 = false := by decide

theorem test_wf_landing_write_slots : (Instr.landingWrite ⟨9, 1⟩ 1 100 0 0 1 41).wellFormed 9 = false := by decide

/-! ## The frame check, and frames written out -/

/-- The check value of the nine digits, for the check R174 describes. -/
theorem test_crc_of_digits : crc [0x31, 0x32, 0x33, 0x34, 0x35, 0x36, 0x37, 0x38, 0x39] = 0x29B1 := by decide +kernel

/-- The command a frame on a port is, for a part whose straps read 9. -/
def reads (p : Port) (address kind : Byte) (payload : List Byte) : Instr :=
  frameCommand 9 9 p (makeFrame address kind payload)

/-- DEMAND: mode, then the velocity -2 in two bytes (R186). -/
theorem test_frame_demand : reads .uplink 11 0x21 [1, 0xFF, 0xFE] = .demand 11 1 0xFFFE := by decide +kernel

theorem test_frame_report :
    reads .field 11 0x22 [0, 1, 0x86, 0xA0, 0xFF, 0x9C, 1, 0x07, 0, 0, 0x17, 0x70, 3] =
      .report 11 ⟨100000, 0xFF9C, 1, 7, 6000, 3⟩ := by decide +kernel

theorem test_frame_shuttle_report :
    reads .field 41 0x32 [3, 2, 7, 4, 0, 5, 0, 255] = .shuttleReport 41 ⟨3, 2, 7, [0, 5, 0, 255]⟩ := by decide +kernel

theorem test_frame_shaft_write :
    reads .uplink 9 0x41 [0x55, 0x01, 0, 0x12, 0x4F, 0x80, 0, 0x12, 0x4F, 0x80, 0x03, 0xE8, 0x13, 0x88] =
      .shaftWrite ⟨9, 0x55⟩ 1200000 1200000 1000 5000 := by decide +kernel

theorem test_frame_zone_write :
    reads .uplink 9 0x41 [1, 0x02, 0, 4, 0, 2, 0x22, 0xE0, 0x0B, 0xB8, 1, 1] =
      .zoneWriteEntry ⟨9, 1⟩ 0 4 140000 3000 1 1 := by decide +kernel

theorem test_frame_zone_count : reads .uplink 9 0x41 [1, 0x02, 0, 16] = .zoneWriteCount ⟨9, 1⟩ 0 16 := by decide +kernel

theorem test_frame_move :
    reads .uplink 9 0x41 [2, 0x20, 1, 0, 0x09, 0xC4, 0x00, 1] = .move ⟨9, 2⟩ 1 640000 1 := by decide +kernel

theorem test_frame_transfer : reads .uplink 9 0x41 [3, 0x30, 1, 1, 255, 17] = .transfer ⟨9, 3⟩ 1 1 255 17 := by
  decide +kernel

theorem test_frame_declare_mass :
    reads .uplink 9 0x41 [4, 0x40, 17, 0x61, 0xA8, 0, 3, 2] = .declareMass ⟨9, 4⟩ 17 25000 0 3 2 := by decide +kernel

theorem test_frame_proof_write : reads .uplink 9 0x41 [5, 0x51, 0, 168, 0x07, 0xD0] = .proofWrite ⟨9, 5⟩ 168 2000 := by
  decide +kernel

theorem test_frame_mask_write : reads .uplink 9 0x41 [6, 0x60, 0x10, 0x01] = .maskWrite ⟨9, 6⟩ 0x1001 := by decide +kernel

theorem test_frame_read_record : reads .uplink 9 0x41 [7, 0x70] = .readRecord ⟨9, 7⟩ := by decide +kernel

theorem test_frame_landing_remove :
    reads .uplink 9 0x41 [8, 0x05, 1, 0, 0, 0, 1, 0, 0, 1, 41] = .landingRemove ⟨9, 8⟩ 1 1 0 1 41 := by decide +kernel

theorem test_frame_unknown_order : reads .uplink 9 0x41 [8, 0xEE, 1] = .unknownOrder ⟨9, 8⟩ 0xEE [1] := by decide +kernel

theorem test_frame_other_station : reads .uplink 8 0x41 [8, 0xEE, 1] = .orderDropped ⟨8, 8⟩ 0xEE [1] := by decide +kernel

theorem test_frame_wrong_way : reads .field 11 0x21 [1, 0, 0] = .frameDropped .field (makeFrame 11 0x21 [1, 0, 0]) := by
  decide +kernel

theorem test_frame_strange : reads .uplink 0 0x7F [9] = .framePassThrough .uplink (makeFrame 0 0x7F [9]) := by
  decide +kernel

/-- No row of the opcode table has bits, so no word spells a command. -/
theorem test_no_word_spells_a_command (nbits w : Nat) : decodeTableWord nbits w = none := rfl

/-! ## A small plant -/

/-- An ORDER to the part, with tag 7. -/
def head : OrderHead := ⟨9, 7⟩

/-- Three zones: PLAIN to 10,000, LANDING L1 to 30,000, PLAIN to the floor. -/
def tableA : ZoneTable :=
  ⟨3, Vector.ofFn fun i =>
    if i = 0 then ⟨0, 4000, .plain⟩
    else if i = 1 then ⟨10000, 3000, .landing 0⟩
    else if i = 2 then ⟨30000, 5000, .plain⟩
    else .blank⟩

def hoistConfigOne : HoistConfig :=
  { compartment := .a, rank := 1, driveStation := 11, tare := 4000, height := 3000, sheaveOffset := 0, ropeCoeff := 0,
    stretchCap := 0, decel := 1000, defaultCeiling := 4000, precedence := 3 }

/-- A REPORT held at a depth, with a speed, drive mode and brake; its load is 6,000. -/
def heldReport (depth : Nat) (speed : Int) (mode : DriveMode) (brake : Brake) : Latest :=
  { drumDepth := depth * 1000, speed := speed, mode := mode, brake := brake, torqueProven := true, proofResult := .none,
    envWarning := false, load := 6000, fault := 0, ropeLength := depth, suspended := 4000, stretch := 0, depth := depth,
    spanTop := depth - 3000 }

/-- H1 in a state, standing at 20,000 in RUN with its brake lifted, its run zone 2. -/
def hoistOne (st : HoistState) : Hoist :=
  { Hoist.initial with
    config := some hoistConfigOne
    latest := some (heldReport 20000 0 .run .lifted)
    freshness := .fresh
    reportTimer := some 200
    demandTimer := if st.watched then some 200 else none
    engageTimer := if st.timesEngage then some 5000 else none
    proofTimer := if st = .proving then some 30000 else none
    stopAllowance := if st = .stopping then some 0 else none
    state := st
    profileCeiling := 4000
    run := some ⟨2, 2⟩
    tripLineOpen := st.lineOpen
    lastPass := some 0
    proofStatus := .current
    move := some
      { target := 21000, direction := .down, parkOnArrival := false, startDepth := 15000, startTime := 0,
        waited := false, clamped := false, degraded := false, stopReason := none,
        isOpen := st == .moving || st == .stopping } }

/-- L1 at 20,000 with four slots, its shuttle IDLE and free. -/
def recordOne : LandingRec :=
  ⟨20000, .sequential, true, false, 41, [.empty, .occupied 4, .unverified none, .blocked none], 0⟩

def landingOne : Landing := ⟨some recordOne, [], .none, .idle, false, none⟩

/-- The plant: compartment A SUPERVISED with one hoist and one landing; mass M5 in slot 1. -/
def plant (r : Hoist) (x : Landing) : State :=
  { State.reset with
    compA := ⟨.supervised, tableA, tableA, .isolate, .stop⟩
    landings := State.reset.landings.set 0 x
    hoists := State.reset.hoists.set 0 r
    masses := State.reset.masses.set 4 ⟨.placed (.slot 0 1), some 10000, none⟩ }

/-- The plant with H1 in a state. -/
def at_ (st : HoistState) : State := plant (hoistOne st) landingOne

/-- The plant outside supervision. -/
def released : State :=
  { plant { hoistOne .releasedLocal with latest := some (heldReport 20000 0 .park .set), run := none } landingOne with
    compA := ⟨.released, tableA, tableA, .isolate, .stop⟩ }

/-- A handover of H1: a DEPOSIT of M6 into slot 0. -/
def deposit (ph : Phase) : Handover := ⟨0, .deposit, some 0, some 5, ph, some 10000, none, false, false⟩

/-- The plant with H1 DOCKED and its handover in a phase. -/
def docked (ph : Phase) : State :=
  plant { hoistOne .docked with carried := .mass 5 }
    { landingOne with
      queue := [deposit ph]
      holder := .handover 0
      record := some { recordOne with slots := [.reserved 5, .occupied 4, .unverified none, .blocked none] } }

/-- The plant with a survey at L1. -/
def surveyed : State :=
  plant (hoistOne .ready) { landingOne with survey := true, surveyTimer := some 20000, holder := .survey }

/-- What a command leaves; the state itself where it stops. -/
def after (i : Instr) (s : State) : State :=
  match exec i s with
  | .next t => t
  | _ => s

theorem after_next {i : Instr} {s t : State} (h : exec i s = .next t) : exec i s = .next (after i s) := by
  simp only [after, h]

/-- The last frame given to a port, as address, kind and payload. -/
def lastSent (s : State) (p : Port) : Option (Byte × Byte × List Byte) :=
  ((s.outbox.filter fun x => x.1 == p).getLast?).map fun x => (x.2.address, x.2.kind, x.2.payload)

/-! ## Figures of the spec, and single steps worked by hand -/

/-- Chapter 02, stretch at a working depth: 37,850 kg on 640 m with k 12. -/
theorem test_stretch : stretchOf { hoistConfigOne with ropeCoeff := 12, stretchCap := 8000 } 37850 640 = 2906 := by decide

/-- Chapter 02, cap and floor. -/
theorem test_stretch_cap : stretchOf { hoistConfigOne with ropeCoeff := 12, stretchCap := 8000 } 64000 1190 = 8000 := by
  decide

theorem test_depth_floor : depthOf 1200000 1195000 8000 = 1200000 := by decide

/-- R87: the largest argument of T3 has the root 100,000. -/
theorem test_isqrt : isqrt 10000000000 = 100000 ∧ isqrt 9999999999 = 99999 := by decide +kernel

/-- R156: the largest figure. -/
theorem test_tally_figure : tallyFigure 100000 1600000 0 = 1569064 := by decide +kernel

/-- R96: +25,000 against an envelope of 20,000 goes down as +20,000 and is SATURATED. -/
theorem test_saturated :
    { hoistOne .ready with envDown := 20000 }.forwardedVelocity 25000 = 20000 ∧
      { hoistOne .ready with envDown := 20000 }.clampReason 25000 = .saturated := by decide +kernel

/-- The ceiling of the zone the span overlaps is the least term both ways for H1 in the plant. -/
theorem test_envelope : (at_ .ready).envelope (hoistOne .ready) .down = 3000 ∧
    (at_ .ready).envelope (hoistOne .ready) .up = 3000 := by decide +kernel

/-- A DEMAND of a READY hoist with no envelope goes down with mode RUN and velocity 0, whatever its mode. -/
theorem test_demand_cut : lastSent (after (.demand 11 0 500) (at_ .ready)) .field = some (11, 0x21, [1, 0, 0]) := by
  decide +kernel

/-- PROVE is for a PARKED hoist: the refusal of a READY one carries the result STATE. -/
theorem test_prove_refused : lastSent (after (.prove head 1) (at_ .ready)) .uplink = some (9, 0x42, [7, 0x50, 1, 0]) := by
  decide +kernel

theorem test_prove_sends : lastSent (after (.prove head 1) (at_ .parked)) .field = some (11, 0x23, []) := by decide +kernel

/-- MOVE down to 40,000 takes zone 3 into the run: nothing holds it. -/
theorem test_move_claims : ((after (.move head 1 40000 0) (at_ .ready)).hoist 0).run = some ⟨2, 3⟩ := by decide +kernel

/-- MOVE within the arrival tolerance of C is refused with RANGE. -/
theorem test_move_near : lastSent (after (.move head 1 20050 0) (at_ .ready)) .uplink = some (9, 0x42, [7, 0x20, 2, 0]) := by
  decide +kernel

/-- COLLECT by AUTO takes the first OCCUPIED slot from the pointer, and LATCH goes to the shuttle. -/
theorem test_transfer_grants : lastSent (after (.transfer head 1 1 255 0) (at_ .ready)) .field = some (41, 0x31, [1, 0, 1]) := by
  decide +kernel

/-- The answer to TRANSFER carries the docking landing's number. -/
theorem test_transfer_answer :
    lastSent (after (.transfer head 1 1 255 0) (at_ .ready)) .uplink = some (9, 0x42, [7, 0x30, 0, 1]) := by decide +kernel

/-- A survey that reads slot 1's own mass and nothing else places it and leaves the records in agreement. -/
theorem test_survey_agrees : ((after (.shuttleReport 41 ⟨3, 0, 0, [0, 5, 0, 0]⟩) surveyed).latched,
    (after (.shuttleReport 41 ⟨3, 0, 0, [0, 5, 0, 0]⟩) surveyed).slotAt 0 2) = (0, .empty) := by decide +kernel

/-- A drive fault trips the hoist, with TRIP the leading category of the next STATUS and H1's line open. -/
theorem test_status_after_trip :
    lastSent (after (.status head) (after (.report 11 ⟨20000, 0, 1, 3, 6000, 9⟩) (at_ .ready))) .uplink =
      some (9, 0x42, [7, 0x62, 0, 0, 0, 1, 1, 0, 0, 0, 0x3F]) := by decide +kernel

/-- Nothing is received while the reset input is asserted. -/
theorem test_held_in_reset : (after (.secondTick) { State.reset with resetInput := true }).seconds = 0 := by decide +kernel

/-- The tick on an empty queue brings the second due at 1,000 into the queue. -/
theorem test_tick_second :
    (match step { State.reset with now := 999 } with
      | .next t => t.pending
      | _ => []) = [.secondTick] := by decide +kernel

/-! ## Witnesses: a state and operands that meet each obligation's hypotheses -/

theorem witness_StepTakesFrontCommand :
    { State.reset with pending := [.secondTick, .resetInputAssert] }.pending = .secondTick :: [.resetInputAssert] := by
  decide +kernel

theorem witness_IdleStepIsOneMillisecond :
    State.reset.pending = [] ∧ State.reset.resetInput = false ∧ { State.reset with resetInput := true }.pending = [] := by
  decide +kernel

theorem witness_EveryCommandCompletes :
    ¬Starts .secondTick := by
  rintro (⟨_, h⟩ | h | ⟨_, h⟩ | ⟨_, _, h⟩) <;> cases h

theorem witness_StartsLeavePowerOnValues :
    { State.reset with resetInput := true }.resetInput = true ∧ State.reset.Takes head := by decide +kernel

theorem witness_HeldInReset :
    { State.reset with resetInput := true }.resetInput = true ∧ Instr.secondTick ≠ .resetInputAssert ∧
      (∀ x, Instr.secondTick ≠ .powerOn x) ∧ ∀ x, Instr.secondTick ≠ .resetInputRelease x := by
  refine ⟨rfl, by decide, ?_, ?_⟩ <;> intro x h <;> cases h

/-- H1 MOVING, and a DEMAND for it waits. -/
def demanded : State := { at_ .moving with pending := [.demand 11 0 500] }

theorem witness_SoundKeptByEveryStep :
    demanded.Sound ∧ demanded.Following ∧ ∃ t, step demanded = .next t :=
  ⟨by decide +kernel, by decide +kernel, after (.demand 11 0 500) (at_ .moving),
    after_next (i := .demand 11 0 500) (s := at_ .moving) (by unfold exec execDemand event; exact rfl)⟩

/-- H1 MOVING down awaits zone 2 behind H2, of a higher rank, which MOVES down in zone 3 and still has zone 2. -/
def chased : State :=
  let s := plant
    { hoistOne .moving with
      latest := some (heldReport 8000 0 .run .lifted)
      run := some ⟨1, 1⟩
      extent := [2] } landingOne
  { s with
    hoists := s.hoists.set 1
      { hoistOne .moving with
        config := some { hoistConfigOne with rank := 2, driveStation := 12 }
        latest := some (heldReport 50000 0 .run .lifted)
        run := some ⟨2, 3⟩ } }

theorem chased_extents (h : HoistId) : (chased.hoist h).ExtentOk :=
  match h with
  | 0 => show 1 ≤ 1 ∧ 1 ≤ 1 ∧ [2] = List.range' 2 1 by decide
  | 1 => show 1 ≤ 2 ∧ 2 ≤ 3 ∧ ([] : List Nat) = List.range' 4 0 by decide
  | 2 => show ([] : List Nat) = [] from rfl
  | 3 => show ([] : List Nat) = [] from rfl
  | 4 => show ([] : List Nat) = [] from rfl
  | 5 => show ([] : List Nat) = [] from rfl

theorem chased_here {h : HoistId} {c : Compartment} (x : (chased.hoist h).inCompartment c = true) : h = 0 ∨ h = 1 := by
  have a : ∀ h : HoistId, h ≠ 0 → h ≠ 1 → (chased.hoist h).config = none := by decide +kernel
  by_contra n
  rw [not_or] at n
  rw [Hoist.inCompartment, a h n.1 n.2] at x
  cases x

theorem witness_ClaimsKeptByEveryStep : chased.Following ∧ chased.ClaimsSound ∧ chased.RankOrder ∧
    ∃ t, step chased = .next t := by
  have one : apart (chased.hoist 0).run (chased.hoist 1).run := show 1 < 2 ∨ 3 < 1 by decide
  have two : apart (chased.hoist 1).run (chased.hoist 0).run := show 3 < 1 ∨ 1 < 2 by decide
  refine ⟨by decide +kernel, ⟨by decide +kernel, by decide +kernel, by decide +kernel, chased_extents, ?_, ?_⟩, ?_,
    _, rfl⟩
  · intro x y c n hx hy
    rcases chased_here hx with rfl | rfl <;> rcases chased_here hy with rfl | rfl
    · exact absurd rfl n
    · exact one
    · exact two
    · exact absurd rfl n
  · have a : ∀ h, (chased.hoist h).extent ≠ [] → h = 0 := by decide +kernel
    intro h k z hk hz
    obtain rfl := a h (by rintro e; rw [e] at hz; cases hz)
    have e : some hoistConfigOne = some k := (show (chased.hoist 0).config = some hoistConfigOne by decide +kernel) ▸ hk
    have f : some 2 = some z := (show (chased.hoist 0).extent.head? = some 2 by decide +kernel) ▸ hz
    injection e with e
    injection f with f
    subst e f
    exact ⟨1, by decide, by decide +kernel⟩
  · intro x y c hx hy hr
    rcases chased_here hx with rfl | rfl <;> rcases chased_here hy with rfl | rfl
    · exact absurd hr (Nat.lt_irrefl _)
    · exact show 1 < 2 by decide
    · exact absurd hr (by decide +kernel)
    · exact absurd hr (Nat.lt_irrefl _)

theorem docked_handovers : (docked .latching).HandoversSound := by
  have a : ∀ l, ∀ v ∈ ((docked .latching).landing l).queue, l = 0 ∧ v = deposit .latching := by decide +kernel
  have b : ∀ l, ((docked .latching).landing l).survey = false := by decide +kernel
  have c : ∀ l, ∀ rec ∈ ((docked .latching).landing l).record, rec.servesA = true := by decide +kernel
  refine ⟨by decide +kernel, by decide +kernel, fun l v hv => ?_, by decide +kernel,
    fun l v hv w hw n => ?_, by decide +kernel, by decide +kernel, fun l x => ?_, fun l rec x => .inl (c l rec x),
    by decide +kernel⟩
  · obtain ⟨rfl, rfl⟩ := a l v hv
    refine ⟨by decide +kernel, by decide +kernel, by decide +kernel, by decide +kernel,
      { recordOne with slots := [.reserved 5, .occupied 4, .unverified none, .blocked none] }, hoistConfigOne, ?_⟩
    decide +kernel
  · obtain ⟨-, rfl⟩ := a l v hv
    obtain ⟨-, rfl⟩ := a l w hw
    exact absurd rfl n
  · rw [b l] at x
    cases x

theorem witness_HandoversKeptByEveryStep :
    (docked .latching).Following ∧ (docked .latching).HandoversSound ∧ ∃ t, step (docked .latching) = .next t :=
  ⟨by decide +kernel, docked_handovers, _, rfl⟩

theorem docked_claims : (docked .latching).ClaimsSound := by
  have a : ∀ h, h ≠ 0 → ((docked .latching).hoist h).config = none := by decide +kernel
  have b : ∀ h, ((docked .latching).hoist h).extent = [] := by decide +kernel
  have only : ∀ h c, ((docked .latching).hoist h).inCompartment c = true → h = 0 := by
    intro h c x
    by_contra n
    rw [Hoist.inCompartment, a h n] at x
    cases x
  refine ⟨by decide +kernel, by decide +kernel, by decide +kernel, fun h => ?_, fun x y c n hx hy => ?_, fun h k z _ hz => ?_⟩
  · match h with
    | 0 => exact show 1 ≤ 2 ∧ 2 ≤ 2 ∧ ([] : List Nat) = List.range' 3 0 by decide
    | 1 => exact rfl
    | 2 => exact rfl
    | 3 => exact rfl
    | 4 => exact rfl
    | 5 => exact rfl
  · exact absurd ((only x c hx).trans (only y c hy).symm) n
  · rw [b h] at hz
    cases hz

theorem witness_RunsHeldByEveryStep :
    (docked .latching).Following ∧ (docked .latching).ClaimsSound ∧ (docked .latching).HandoversSound ∧
      (docked .latching).RunsHeld ∧ ∃ t, step (docked .latching) = .next t := by
  refine ⟨by decide +kernel, docked_claims, docked_handovers, ⟨fun c n => ?_, fun c n => ?_, by decide +kernel, fun h l e => ?_,
    by decide +kernel⟩, _, rfl⟩
  · cases c
    · refine ⟨by decide +kernel, fun z low high => ?_⟩
      have high : z ≤ 3 := high
      obtain rfl | rfl | rfl : z = 1 ∨ z = 2 ∨ z = 3 := by omega
      all_goals decide +kernel
    · exact absurd rfl n
  · cases c
    · decide +kernel
    · cases n
  · have a : ∀ h, ∀ l ∈ ((docked .latching).hoist h).latest, l.spanTop ≤ l.depth := by decide +kernel
    exact a h l e

theorem witness_FramesThatReachNoBlock :
    checkHolds brokenFrame = false ∧ checkHolds (makeFrame 0 0x21 [1, 0, 0]) = true ∧
      checkHolds (makeFrame 11 0x21 [1]) = true ∧ rightDirection .uplink 0x21 = true ∧ lengthSuits 0x21 [1] = false ∧
      rightDirection .field 0x21 = false ∧ knownKind 0x21 = true ∧ knownKind strangeFrame.kind = false ∧
      checkHolds strangeFrame = true ∧ State.reset.resetInput = false ∧ (at_ .moving).driveAt 12 = none ∧
      (at_ .moving).shuttleAt 42 = none ∧ (List.replicate 8 (0 : Byte)).length ≤ 8 := by decide +kernel

theorem witness_OrdersNotCarriedOut :
    State.reset.Takes head ∧ orderLengths 0xEE = none ∧ orderLengths 0x12 = some [1] ∧ ([] : List Byte).length ∉ [1] ∧
      State.reset.consumes ⟨63, 1⟩ = false ∧ State.reset.consumes ⟨8, 1⟩ = false ∧ ¬(0xEE : Byte) = 0x1A ∧
      tableOrder (.engage ⟨63, 1⟩ 1) = some (⟨63, 1⟩, 0x12) ∧ Instr.engage ⟨63, 1⟩ 1 ≠ .allStop ⟨63, 1⟩ ∧
      tableOrder (.allStop ⟨8, 1⟩) = some (⟨8, 1⟩, 0x1A) := by decide +kernel

theorem witness_OneAnswerEach :
    tableOrder (.engage head 1) = some (head, 0x12) ∧ State.reset.Takes head := by decide +kernel

theorem witness_DemandRouted :
    (at_ .moving).resetInput = false ∧ (at_ .moving).driveAt 11 = some 0 ∧ (at_ .moving).driveAt 12 = none := by
  decide +kernel

theorem witness_ForwardedVelocityAndReason :
    (hoistOne .ready).state = .ready ∧ (hoistOne .parked).state ≠ .ready ∧ (hoistOne .parked).state ≠ .moving ∧
      (∃ l, (hoistOne .ready).latest = some l ∧ l.mode = .run ∧ l.brake = .lifted) ∧
      ¬∃ l, (some (heldReport 0 0 .park .set)) = some l ∧ l.mode = .run ∧ l.brake = .lifted := by
  refine ⟨by decide, by decide, by decide, ⟨_, rfl, by decide, by decide⟩, ?_⟩
  rintro ⟨l, h, m, _⟩
  injection h with h
  rw [← h] at m
  exact nomatch m

theorem witness_NoDemandBeyondTheEnvelope :
    exec (.demand 11 0 500) (at_ .ready) = .next (after (.demand 11 0 500) (at_ .ready)) ∧
      (Port.field, makeFrame 11 0x21 [1, 0, 0]) ∈ (after (.demand 11 0 500) (at_ .ready)).outbox ∧
      (makeFrame 11 0x21 [1, 0, 0]).kind = kindDemand := by
  refine ⟨?_, by decide +kernel, by decide⟩
  exact after_next (i := .demand 11 0 500) (s := at_ .ready) (by unfold exec execDemand event; exact rfl)

theorem witness_ReportTaken :
    (at_ .moving).resetInput = false ∧ (at_ .moving).driveAt 11 = some 0 ∧
      ((at_ .moving).hoist 0).config = some hoistConfigOne ∧ ((at_ .moving).hoist 0).weighPending = false := by
  decide +kernel

/-- H2 releases zone 2 behind it, and H1 takes it. -/
theorem witness_ReleaseBehind :
    (chased.hoist 1).state = .moving ∧ (chased.hoist 1).run = some ⟨2, 3⟩ ∧ (chased.hoist 1).move.isSome = true ∧
      (∀ y, (chased.hoist y).ExtentOk) ∧ (chased.hoist 1).config.isSome = true ∧
      (chased.hoist 0).inCompartment .a = true ∧ (chased.hoist 0).extent.head? = some 2 ∧
      (∀ x, x ≠ 1 → inRun (chased.hoist x).run 2 = false) ∧ (∀ x, x ≠ 0 → (chased.hoist x).extent.head? ≠ some 2) ∧
      ((chased.releaseBehind 1).hoist 0).run = some ⟨1, 2⟩ ∧ ((at_ .ready).hoist 0).state ≠ .moving := by
  exact ⟨by decide +kernel, by decide +kernel, by decide +kernel, chased_extents, by decide +kernel⟩

/-- H1 in a state, as a REPORT leaves it. -/
def reported (st : HoistState) (x : Latest) : State := plant { hoistOne st with latest := some x } landingOne

/-- The plant with H2 PARKED so near below H1 that the pair fails the separation test. -/
def crowded : State :=
  { at_ .ready with
    hoists := (at_ .ready).hoists.set 1
      { hoistOne .parked with
        config := some { hoistConfigOne with rank := 2, driveStation := 12 }
        latest := some (heldReport 25000 0 .park .set)
        run := none } }

theorem witness_TestsOfAReport :
    (∃ z ∈ runZones (tableA.overlap 1600000 37000 40000), inRun ((at_ .ready).hoist 0).run z = false) ∧
      ((reported .ready (heldReport 40000 0 .run .lifted)).actOnTests 0 50).latched.getLsbD 0 = true ∧
      ((at_ .ready).hoist 0).refDown + (at_ .ready).timers.overspeedMargin < 9000 ∧
      (∀ z ∈ runZones (tableA.overlap 1600000 17000 20000), inRun ((at_ .ready).hoist 0).run z = true) ∧
      (((crowded.hoist 1).spanTop : Int) - 20000 < crowded.shaft.separation) ∧ (crowded.hoist 1).state.supervised = true ∧
      hoistConfigOne.rank < (crowded.hoist 1).rank ∧ (crowded.hoist 1).inCompartment .a = true ∧
      ({ heldReport 20000 0 .run .lifted with fault := 3 }).fault ≠ 0 ∧ ((at_ .tripped).hoist 0).state = .tripped ∧
      ((crowded.actOnTests 0 50).hoist 1).tripCause = some .separation ∧ (crowded.comp .a).tripScope = .isolate := by
  decide +kernel

/-- H1 MOVING with its target just inside the arrival tolerance of C. -/
def arriving : State :=
  plant { hoistOne .moving with move := (hoistOne .moving).move.map fun m => { m with target := 20050 } } landingOne

theorem witness_SequencerActsOnReport :
    ((at_ .engaging).hoist 0).latest = some (heldReport 20000 0 .run .lifted) ∧
      ((at_ .engaging).hoist 0).state = .engaging ∧ (∃ m, (arriving.hoist 0).move = some m ∧ (arriving.hoist 0).state = .moving ∧
      (arriving.hoist 0).speed = 0 ∧ (((arriving.hoist 0).depth : Int) - m.target).natAbs ≤ arriving.timers.arrivalTolerance ∧
      m.isOpen = true) ∧ ((at_ .stopping).hoist 0).state = .stopping ∧ ((at_ .stopping).hoist 0).speed = 0 ∧
      ((at_ .parking).hoist 0).brakeLifted = true ∧ ((at_ .parking).hoist 0).extent = [] ∧
      ((reported .parking (heldReport 20000 0 .park .set)).hoist 0).brakeLifted = false ∧
      tableA.overlap 1600000 17000 20000 = some ⟨2, 2⟩ ∧ tableA.overlap 1600000 16000 21000 = some ⟨2, 2⟩ ∧
      ((at_ .proving).hoist 0).state = .proving ∧
      ({ heldReport 20000 0 .park .set with proofResult := .pass }).proofResult = .pass := by
  refine ⟨by decide +kernel, by decide +kernel, ⟨_, rfl, ?_⟩, ?_⟩ <;> decide +kernel

theorem witness_TripStopsTheHoist :
    ((at_ .tripped).hoist 0).state = .tripped ∧ (State.reset.hoist 0).state = .unconfigured ∧
      ((at_ .moving).hoist 0).state.supervised = true ∧ ((at_ .moving).hoist 0).state ≠ .tripped ∧
      ((at_ .moving).hoist 0).moveOpen = true ∧ ((at_ .moving).hoist 0).config = some hoistConfigOne ∧
      ((at_ .moving).hoist 0).latest = some (heldReport 20000 0 .run .lifted) ∧
      ((at_ .moving).hoist 0).run = some ⟨2, 2⟩ ∧ tableA.overlap 1600000 37000 40000 = some ⟨3, 3⟩ ∧
      (((reported .moving (heldReport 40000 0 .run .lifted)).trip 0 .overtravel).hoist 0).run = some ⟨2, 3⟩ ∧
      (1 : HoistId) ≠ 0 := by decide +kernel

theorem witness_ShuttleReportForwardedLast :
    (docked .latching).resetInput = false ∧ (docked .latching).shuttleAt 41 = some 0 := by decide +kernel

theorem witness_LatchedBeginsTransfer :
    (docked .latching).shuttleAt 41 = some 0 ∧ ((docked .latching).landing 0).record.isSome = true ∧
      ((docked .latching).landing 0).holder = .handover 0 ∧
      (((docked .latching).landing 0).queue.find? fun x => x.hoist == 0) = some (deposit .latching) ∧
      ((docked .latching).hoist 0).config = some hoistConfigOne ∧ (deposit .latching).slot = some 0 := by decide +kernel

theorem witness_DoneMovesTheMass :
    (docked .transferring).shuttleAt 41 = some 0 ∧ ((docked .transferring).landing 0).record.isSome = true ∧
      ((docked .transferring).landing 0).holder = .handover 0 ∧
      (((docked .transferring).landing 0).queue.find? fun x => x.hoist == 0) = some (deposit .transferring) ∧
      ((docked .transferring).hoist 0).config = some hoistConfigOne ∧ (deposit .transferring).mass = some 5 ∧
      (6 : Byte).toNat = (5 : MassId).val + 1 ∧ (5 : Byte).toNat = (4 : MassId).val + 1 ∧ 0 < recordOne.slots.length ∧
      ((docked .transferring).mass 4).status = .placed (.slot 0 1) ∧
      (∀ y, ∀ v ∈ ((docked .transferring).landing y).queue, v.mass ≠ some 4) ∧
      ((docked .transferring).mass 95).status = .absent := by decide +kernel

theorem witness_IdleClosesTheHandover :
    (docked .unlatching).shuttleAt 41 = some 0 ∧ ((docked .unlatching).landing 0).record.isSome = true ∧
      ((docked .unlatching).landing 0).holder = .handover 0 ∧
      (((docked .unlatching).landing 0).queue.find? fun x => x.hoist == 0) = some (deposit .unlatching) ∧
      ((docked .unlatching).hoist 0).config = some hoistConfigOne ∧
      (∀ x ∈ ((docked .unlatching).landing 0).queue, x.hoist ≠ 0 → x.phase ≠ .waiting) := by decide +kernel

/-- Two handovers wait at L1: of H1, with shuttle precedence 3, and of H2, which has 0. -/
def contended : State :=
  { plant { hoistOne .docked with carried := .mass 5 }
      { landingOne with queue := [deposit .waiting, { deposit .waiting with hoist := 1, slot := none, mass := some 6 }] } with
    groups := State.reset.groups }

theorem witness_ArbiterGrantsByPrecedence :
    contended.shuttleAt 41 = some 0 ∧ (contended.landing 0).record = some recordOne ∧
      (contended.landing 0).holder = .none ∧
      (contended.landing 0).queue = [deposit .waiting, { deposit .waiting with hoist := 1, slot := none, mass := some 6 }] ∧
      (contended.hoist 1).precedence < (contended.hoist 0).precedence ∧ recordOne.slots.length = 4 ∧
      (contended.hoist 0).config = some hoistConfigOne ∧ contended.Chooses 0 recordOne (deposit .waiting) 0 5 ∧
      ∀ i m, ¬contended.Chooses 0 recordOne { deposit .waiting with slot := some 1 } i m := by
  refine ⟨by decide +kernel, by decide +kernel, by decide +kernel, by decide +kernel, by decide +kernel, by decide,
    by decide +kernel, ⟨rfl, .inl ⟨rfl, rfl, rfl⟩⟩, fun i m => ?_⟩
  rintro ⟨-, ⟨-, h, -⟩ | ⟨h, -⟩⟩ <;> cases h

theorem witness_SurveyFailureChangesNoRecord :
    surveyed.shuttleAt 41 = some 0 ∧ (surveyed.landing 0).record = some recordOne ∧ (surveyed.landing 0).holder = .survey ∧
      (surveyed.landing 0).queue = [] ∧ [(0 : Byte), 0, 0].length < recordOne.slots.length ∧ 4 ≤ (4 : Byte).toNat ∧
      (2 : Byte).toNat ≤ 2 ∧ (surveyed.landing 0).surveyTimer = some 20000 ∧ surveyed.now < 20000 ∧
      20000 ≤ { surveyed with now := 20000 }.now ∧ ∀ x ∈ (surveyed.landing 0).queue, x.phase ≠ .waiting := by decide +kernel

theorem witness_HandoverFailuresByPhase :
    (docked .latching).openHandover 0 = some (0, deposit .latching) ∧
      (docked .transferring).openHandover 0 = some (0, deposit .transferring) ∧
      (docked .unlatching).openHandover 0 = some (0, deposit .unlatching) ∧ (deposit .latching).timer = some 10000 ∧
      10000 ≤ { docked .latching with now := 10000 }.now ∧ (docked .latching).now < 10000 ∧
      ((docked .latching).hoist 0).config = some hoistConfigOne ∧ ((docked .latching).landing 0).record.isSome = true ∧
      (docked .latching).shuttleAt 41 = some 0 ∧ ((docked .latching).landing 0).holder = .handover 0 ∧
      4 ≤ (4 : Byte).toNat := by decide +kernel

theorem witness_ReportAgeExpiryByState :
    ((at_ .parked).hoist 0).reportTimer = some 200 ∧ ((at_ .parked).hoist 0).freshness = .fresh ∧
      200 ≤ { at_ .parked with now := 200 }.now ∧ (at_ .parked).now < 200 ∧
      (released.hoist 0).reportTimer = some 200 ∧ (released.hoist 0).state.supervised = false ∧
      ((at_ .moving).hoist 0).reportTimer = some 200 ∧ ((at_ .moving).hoist 0).state.supervised = true ∧
      ({ hoistOne .parked with freshness := .none }).freshness ≠ .fresh := by decide +kernel

/-- The expiry that a REPORT has overtaken does not happen (R32), and that of a timer reached does. -/
theorem test_report_age_overtaken :
    let s := { at_ .moving with now := 200 }
    ((after (.reportAgeExpiry 0) s).hoist 0).state = .tripped ∧
      (let t := after (.report 11 ⟨20000, 0, 1, 3, 6000, 0⟩) s
       after (.reportAgeExpiry 0) t = t) := by decide +kernel

/-- The plant with compartment A's stale action TRIP. -/
def staleTrips : State :=
  { at_ .moving with compA := ⟨.supervised, tableA, tableA, .isolate, .trip⟩ }

theorem witness_DemandAgeExpiryInjects :
    ((at_ .ready).hoist 0).demandTimer = some 200 ∧ ((at_ .ready).hoist 0).state.watched = true ∧
      200 ≤ { at_ .ready with now := 200 }.now ∧ (at_ .ready).now < 200 ∧
      ((at_ .moving).hoist 0).demandTimer = some 200 ∧ ((at_ .moving).comp .a).staleAction = .stop ∧
      (staleTrips.hoist 0).demandTimer = some 200 ∧ (staleTrips.comp .a).staleAction = .trip ∧
      (staleTrips.hoist 0).config = some hoistConfigOne ∧ hoistConfigOne.compartment = .a ∧
      (({ staleTrips with now := 200 }.trip 0 .overtravel).hoist 0).overtaken = some .stale := by decide +kernel

theorem witness_EngageParkAndProofTimeouts :
    ((at_ .engaging).hoist 0).engageTimer = some 5000 ∧ ((at_ .proving).hoist 0).proofTimer = some 30000 ∧
      ((at_ .parking).hoist 0).engageTimer = some 5000 ∧ 30000 ≤ { at_ .proving with now := 30000 }.now ∧
      (at_ .proving).now < 5000 ∧ (at_ .parking).resetInput = false ∧ TripCause.overtravel ≠ .parkFail ∧
      (({ at_ .parking with now := 5000 }.trip 0 .overtravel).hoist 0).overtaken = some .parkFail ∧
      ((at_ .moving).hoist 0).demandTimer = some 200 ∧ TripCause.overtravel ≠ .stale := by decide +kernel

/-- A park timeout that falls due with a trip of the REPORT before it latches TRIP again (R109). -/
theorem test_park_timeout_overtaken :
    let s := { at_ .parking with now := 5000 }.trip 0 .overtravel
    (after (.parkTimeout 0) (after (.status head) s)).latched = 1 := by decide +kernel

theorem witness_SecondTickEvaluatesEveryProof :
    State.reset.resetInput = false ∧ State.reset.seconds + 1 < 2 ^ 32 ∧ (State.reset.hoist 0).lastPass = none ∧
      ((at_ .ready).hoist 0).lastPass = some 0 ∧ (1 : Nat) - 0 < (at_ .ready).proofInterval ∧
      (let s := plant { hoistOne .moving with lastPass := none } landingOne
       ((after .secondTick s).hoist 0).proofStatus ∉ [(s.hoist 0).proofStatus, .current] ∧ (s.hoist 0).moveOpen = true) := by
  decide +kernel

theorem witness_ShaftWriteSetsAll :
    released.Takes head ∧ released.compA.state ≠ .supervised ∧ released.compB.state ≠ .supervised ∧
      (at_ .ready).compA.state = .supervised ∧ (10000 : Word).toNat = 10000 ∧ (1600000 : Word).toNat ≤ 1600000 ∧
      (∀ l, ∀ rec ∈ (released.landing l).record, rec.sill < 1600000) ∧ ∃ rec, (released.landing 0).record = some rec ∧ 20000 ≤ rec.sill := by
  refine ⟨by decide +kernel, by decide +kernel, by decide +kernel, by decide +kernel, by decide, by decide, by decide +kernel, ?_⟩
  exact ⟨recordOne, by decide +kernel, by decide⟩

theorem witness_ZoneWriteSetsShadow :
    State.reset.Takes head ∧ Compartment.a.code = (0 : Byte).toNat ∧ 1 ≤ (48 : Byte).toNat ∧ (48 : Byte).toNat ≤ 48 ∧
      (1600000 : Word).toNat ≤ 1600000 ∧ (ZoneKind.landing 15).code = (1 : Byte).toNat ∧
      (ZoneKind.landing 15).landingCode = (16 : Byte).toNat ∧ 48 < (49 : Byte).toNat ∧ 2 ≤ (2 : Byte).toNat := by
  decide +kernel

/-- The plant with H1 PARKED at a depth, and compartment A's shadow table `tableA` with one entry replaced. -/
def shadowed (depth i : Nat) (e : ZoneEntry) : State :=
  { plant { hoistOne .parked with latest := some (heldReport depth 0 .park .set) } landingOne with
    compA := ⟨.supervised, tableA, ⟨3, tableA.entries.set! i e⟩, .isolate, .stop⟩ }

theorem witness_ZoneCommitTakesShadow :
    (at_ .parked).Takes head ∧ (0 : Byte).toNat = Compartment.a.code ∧ released.Takes head ∧
      (∀ h, ((at_ .parked).hoist h).inCompartment .a = true → ((at_ .parked).hoist h).state = .parked) ∧
      (released.comp .a).state ≠ .supervised ∧ (State.reset.comp .a).shadow.count = 0 ∧
      ((shadowed 20000 0 ⟨5, 0, .plain⟩).comp .a).shadow.upper 1 ≠ 0 ∧
      ((shadowed 20000 1 ⟨1999, 0, .landing 0⟩).comp .a).shadow.lower 1600000 1 < 2000 ∧
      ((shadowed 20000 2 ⟨30000, 0, .landing 0⟩).comp .a).shadow.upper 3 > recordOne.sill ∧
      ((shadowed 20000 1 ⟨10000, 0, .plain⟩).comp .a).shadow.entry 2 = ⟨10000, 0, .plain⟩ ∧
      inRun ((shadowed 40000 2 ⟨30000, 0, .barred⟩).spanZones tableA
        ((shadowed 40000 2 ⟨30000, 0, .barred⟩).hoist 0)) 3 = true ∧
      ¬∀ h, ((at_ .ready).hoist h).inCompartment .a = true → ((at_ .ready).hoist h).state = .parked := by decide +kernel

/-- The details of TABLE and CONFLICT: the first zone that fails, 128 plus the landing that no zone names, and the zone barred. -/
theorem test_commit_details :
    ([shadowed 20000 0 ⟨5, 0, .plain⟩, shadowed 20000 1 ⟨1999, 0, .landing 0⟩, shadowed 20000 2 ⟨30000, 0, .landing 0⟩,
      shadowed 20000 1 ⟨10000, 0, .plain⟩, shadowed 40000 2 ⟨30000, 0, .barred⟩].map fun s =>
        (lastSent (after (.zoneCommit head 0) s) .uplink).map fun x => x.2.2.drop 2) =
      [some [8, 1], some [8, 1], some [8, 3], some [8, 129], some [6, 3]] := by decide +kernel

/-- The plant outside supervision, with no mass at L1. -/
def emptied : State :=
  { released with
    landings := released.landings.set 0
      { landingOne with record := some { recordOne with slots := [.empty, .empty, .unverified none, .blocked none] } } }

theorem witness_LandingWriteAndRemove :
    released.Takes head ∧ (2 : Byte).toNat = (1 : LandingId).val + 1 ∧ 1 ≤ (1 : Word).toNat ∧
      (1599999 : Word).toNat + 1 ≤ released.shaft.floor ∧ (0 : Byte).toNat = OrderMode.sequential.code ∧
      (1 : Byte).getLsbD 0 = true ∧ (62 : Byte).toNat ≤ 62 ∧ released.compA.state ≠ .supervised ∧
      released.compB.state ≠ .supervised ∧ (∀ rec ∈ (released.landing 1).record, ∀ x ∈ rec.slots, x.names = none) ∧
      (62 : Byte).toNat ≠ released.strapAddress.toNat ∧
      (∀ k, ∀ rec ∈ (released.landing k).record, k ≠ 1 → rec.station ≠ 62) ∧
      (∀ h, ∀ k ∈ (released.hoist h).config, k.driveStation ≠ 62) ∧
      emptied.Takes head ∧ (1 : Byte).toNat = (0 : LandingId).val + 1 ∧ (emptied.landing 1).record = none ∧
      (∀ rec ∈ (emptied.landing 0).record, (rec.servesA = true → emptied.compA.state ≠ .supervised) ∧
        (rec.servesB = true → emptied.compB.state ≠ .supervised) ∧ ∀ x ∈ rec.slots, x.names = none) ∧
      (emptied.landing 0).record.isSome = true ∧ (emptied.compA.committed.entry 2).kind = .landing 0 := by decide +kernel

/-- HOIST_CONFIG parameters at bounds of their ranges, with drive station 12. -/
def paramsTwo : HoistParams := ⟨0, 3, 12, 1000, 20000, 200, 63, 8000, 3000, 65535, 7⟩

theorem witness_HoistConfigWrites :
    released.Takes head ∧ (2 : Byte).toNat = (1 : HoistId).val + 1 ∧ paramsTwo.compartment.toNat = Compartment.a.code ∧
      paramsTwo.rank.toNat = 3 ∧ paramsTwo.tare.toNat = 1000 ∧ paramsTwo.height.toNat = 20000 ∧
      paramsTwo.sheaveOffset.toNat = 200 ∧ paramsTwo.ropeCoeff.toNat = 63 ∧ paramsTwo.stretchCap.toNat = 8000 ∧
      paramsTwo.decel.toNat = 3000 ∧ paramsTwo.precedence.toNat = 7 ∧ (released.comp .a).state ≠ .supervised ∧
      (released.hoist 1).config = none ∧ 12 ≠ released.strapAddress.toNat ∧
      (∀ x, ∀ k ∈ (released.hoist x).config, x ≠ 1 → k.rank ≠ 3 ∧ k.driveStation ≠ 12) ∧
      ∀ l, ∀ rec ∈ (released.landing l).record, rec.station ≠ 12 := by decide +kernel

theorem witness_EngageAndPark :
    (at_ .parked).Takes head ∧ (1 : Byte).toNat = (0 : HoistId).val + 1 ∧
      ((at_ .parked).hoist 0).config = some hoistConfigOne ∧ ((at_ .parked).hoist 0).freshness = .fresh ∧
      ((at_ .parked).hoist 0).proofStatus ≠ .lapsed ∧ ((at_ .engaging).hoist 0).state = .engaging ∧
      ((at_ .moving).hoist 0).state ≠ .ready ∧ ({ hoistOne .parked with proofStatus := .lapsed }).proofStatus = .lapsed ∧
      ∀ h : HoistId, (0 : Byte).toNat = h.val + 1 → ((at_ .parked).hoist h).config = none := by decide +kernel

theorem witness_MoveOpensAMove :
    (at_ .ready).Takes head ∧ ((at_ .ready).hoist 0).config = some hoistConfigOne ∧ ((at_ .ready).hoist 0).state = .ready ∧
      ((at_ .ready).hoist 0).proofStatus ≠ .lapsed ∧ hoistConfigOne.height ≤ (40000 : Word).toNat ∧
      (40000 : Word).toNat ≤ (at_ .ready).shaft.floor ∧
      (∀ z ∈ runZones (tableA.overlap 1600000 (40000 - 3000) 40000), (tableA.entry z).kind ≠ .barred) ∧
      (at_ .ready).timers.arrivalTolerance < ((40000 : Int) - ((at_ .ready).hoist 0).depth).natAbs ∧
      (at_ .ready).moveConflict 0 40000 = none := by decide +kernel

theorem witness_MoveRetargetsAnOpenMove :
    (at_ .moving).Takes head ∧ ((at_ .moving).hoist 0).config = some hoistConfigOne ∧ ((at_ .moving).hoist 0).state = .moving ∧
      ((at_ .moving).hoist 0).run = some ⟨2, 2⟩ ∧ tableA.zoneAt 1600000 (max 20000 (min (40000 + 1000) 1600000)) = some 3 ∧
      (at_ .moving).spanZones tableA ((at_ .moving).hoist 0) = some ⟨2, 2⟩ ∧ (at_ .moving).shaft.guard = 1000 ∧
      ((at_ .moving).hoist 0).proofStatus ≠ .lapsed ∧ hoistConfigOne.height ≤ (40000 : Word).toNat ∧
      (40000 : Word).toNat ≤ (at_ .moving).shaft.floor ∧
      (∀ z ∈ runZones (tableA.overlap 1600000 (40000 - 3000) 40000), (tableA.entry z).kind ≠ .barred) ∧
      (at_ .moving).timers.arrivalTolerance < ((40000 : Int) - ((at_ .moving).hoist 0).depth).natAbs ∧
      (at_ .moving).moveConflict 0 40000 = none ∧ ((at_ .moving).hoist 0).move.isSome = true ∧
      ((at_ .moving).hoist 0).moveDirection = .down ∧ ((at_ .moving).hoist 0).depth ≤ 40000 := by decide +kernel

theorem witness_StopOrders :
    (at_ .moving).Takes head ∧ ((at_ .moving).hoist 0).state = .moving ∧ ((at_ .stopping).hoist 0).state = .stopping ∧
      ((at_ .ready).hoist 0).state ≠ .moving ∧ (4 : Byte).toNat = (3 : GroupId).val + 1 ∧
      (after (.groupWrite head 4 1) (at_ .moving)).group 3 = 1 ∧ (⟨63, 1⟩ : OrderHead).address = 63 := by decide +kernel

/-- H1 TRIPPED on zone 2 with its brake set. -/
def tripped : State :=
  plant { hoistOne .tripped with latest := some (heldReport 20000 0 .park .set), tripCause := some .stale } landingOne

/-- H1 TRIPPED below H2, which is of a higher rank and holds zone 2. -/
def crossed : State :=
  let s := plant
    { hoistOne .tripped with latest := some (heldReport 40000 0 .park .set), run := some ⟨1, 1⟩ } landingOne
  { s with
    hoists := s.hoists.set 1
      { hoistOne .parked with
        config := some { hoistConfigOne with rank := 2, driveStation := 12 }
        latest := some (heldReport 20000 0 .park .set) } }

theorem witness_ResetHoistParks :
    tripped.Takes head ∧ (tripped.hoist 0).config = some hoistConfigOne ∧ (tripped.hoist 0).state = .tripped ∧
      (tripped.hoist 0).freshness = .fresh ∧ (∀ l ∈ (tripped.hoist 0).latest, l.brake = .set) ∧
      tripped.openHandover 0 = none ∧ (tripped.hoist 0).extent = [] ∧
      (∀ z ∈ runZones (tripped.spanZones tableA (tripped.hoist 0)), (tableA.entry z).kind ≠ .barred ∧
        ∀ x ∈ tripped.holder .a z, x = 0) ∧
      (∀ x, (tripped.hoist x).inCompartment .a = true → x = 0) ∧ crossed.openHandover 0 = none ∧
      (crossed.hoist 0).freshness = .fresh ∧ (crossed.hoist 0).state = .tripped ∧
      hoistConfigOne.rank < (crossed.hoist 1).rank ∧ (crossed.hoist 1).run = some ⟨2, 2⟩ ∧
      crossed.spanZones tableA (crossed.hoist 0) = some ⟨3, 3⟩ := by decide +kernel

/-- RESET_HOIST tests the rank order (R62): H1 stands in a free zone below H2, and the answer is CONFLICT. -/
theorem test_reset_rank_order :
    lastSent (after (.resetHoist head 1) crossed) .uplink = some (9, 0x42, [7, 0x14, 6, 0]) := by decide +kernel

theorem witness_CeilingsAndGroupsAreWritten :
    (at_ .ready).Takes head ∧ ((at_ .ready).hoist 0).config = some hoistConfigOne ∧
      ((at_ .ready).hoist 5).config = none ∧ (6 : Byte).toNat = (5 : HoistId).val + 1 ∧
      ((after (.groupWrite head 1 63) (at_ .ready)).group 0).getLsbD 0 = true ∧
      (4 : Byte).toNat = (3 : GroupId).val + 1 ∧ (63 : Byte).toNat < 64 ∧ 4 < (5 : Byte).toNat ∧ 6 < (7 : Byte).toNat := by
  decide +kernel

/-- A COLLECT by AUTO, with no mass named. -/
def collectAuto : TransferRequest := ⟨.collect, none, none⟩

theorem docks : (at_ .ready).DocksAt 0 .a 0 recordOne := by
  have far : ∀ y, ∀ z ∈ ((at_ .ready).landing y).record, y = 0 ∧ z = recordOne := by decide +kernel
  refine ⟨by decide +kernel, by decide, by decide +kernel, fun y z h _ _ => ?_, 2, by decide, by decide +kernel,
    by decide +kernel, by decide +kernel, ?_⟩
  · obtain ⟨rfl, rfl⟩ := far y z h
    exact .inr ⟨rfl, le_refl _⟩
  · intro y h1 h2
    have : y = 1 := by omega
    subst this
    decide +kernel

theorem fits : (at_ .ready).TransferFits 0 .a 0 recordOne collectAuto := by
  constructor
  case index => intro i h; cases h
  case slots => intro x _ i h; cases h
  case slot => intro i h; cases h
  case mass => intro m h; cases h
  case masses => intro y x _ m h; cases h
  all_goals decide +kernel

theorem witness_TransferOpensAHandover :
    (at_ .ready).Takes head ∧ (1 : Byte).toNat = (0 : HoistId).val + 1 ∧
      ((at_ .ready).hoist 0).config = some hoistConfigOne ∧ ((at_ .ready).comp .a).state = .supervised ∧
      ((at_ .ready).hoist 0).state = .ready ∧ (1 : Byte).toNat = TransferKind.collect.code ∧ (255 : Byte).toNat = 255 ∧
      recordOne.slots.length ≤ 8 ∧ (at_ .ready).DocksAt 0 .a 0 recordOne ∧
      (at_ .ready).TransferFits 0 .a 0 recordOne collectAuto ∧ ((at_ .ready).landing 0).holder = .none ∧
      ((at_ .ready).landing 0).shuttle = .idle ∧
      (at_ .ready).chooseSlot 0 recordOne ⟨0, .collect, none, none, .waiting, none, none, false, false⟩ = some (1, 4) := by
  refine ⟨by decide +kernel, by decide, by decide +kernel, by decide +kernel, by decide +kernel, by decide, by decide,
    by decide, docks, fits, by decide +kernel, by decide +kernel, by decide +kernel⟩

/-- H1's handover waits behind a survey. -/
def waiting : State := plant (hoistOne .docked) { landingOne with queue := [deposit .waiting], holder := .survey }

theorem witness_AbortTransferByPhase :
    (docked .waiting).Takes head ∧ (at_ .ready).openHandover 0 = none ∧
      (docked .stuck).openHandover 0 = some (0, deposit .stuck) ∧
      (waiting.openHandover 0 = some (0, deposit .waiting)) ∧ (waiting.landing 0).holder ≠ .handover 0 ∧
      (docked .latching).openHandover 0 = some (0, deposit .latching) ∧ (deposit .latching).slot = some 0 ∧
      (deposit .latching).mass = some 5 ∧ ((docked .latching).landing 0).record.isSome = true := by decide +kernel

theorem witness_ResolveFreesAStuckHandover :
    (docked .stuck).Takes head ∧ (docked .stuck).openHandover 0 = some (0, deposit .stuck) ∧
      (deposit .stuck).settled = false ∧ (2 : Byte).toNat ≤ 2 ∧ 2 < (3 : Byte).toNat ∧
      (docked .latching).openHandover 0 = some (0, deposit .latching) ∧ ((docked .stuck).landing 0).record.isSome = true := by
  decide +kernel

theorem witness_BlockAndUnblockSlot :
    (at_ .ready).Takes head ∧ ((at_ .ready).landing 0).record = some recordOne ∧ ((at_ .ready).landing 0).survey = false ∧
      recordOne.slots[(0 : Byte).toNat]? = some .empty ∧ recordOne.slots[(1 : Byte).toNat]? = some (.occupied 4) ∧
      recordOne.slots[(2 : Byte).toNat]? = some (.unverified none) ∧
      recordOne.slots[(3 : Byte).toNat]? = some (.blocked none) ∧ recordOne.slots.length ≤ (4 : Byte).toNat ∧
      (surveyed.landing 0).survey = true ∧ ((at_ .ready).landing 0).queue = [] ∧
      ∀ l : LandingId, (17 : Byte).toNat = l.val + 1 → ((at_ .ready).landing l).record = none := by decide +kernel

theorem witness_DeclareAndRemoveMass :
    released.Takes head ∧ (5 : Byte).toNat = (4 : MassId).val + 1 ∧ (released.mass 4).status.place = some (.slot 0 1) ∧
      (released.mass 4).status ≠ .absent ∧ (released.mass 95).status = .absent ∧ (5000 : Half).toNat = 5000 ∧
      (60000 : Half).toNat ≤ 60000 ∧ (released.comp .a).state ≠ .supervised ∧ (released.comp .b).state ≠ .supervised ∧
      released.slotAt 0 0 = .empty ∧ (released.hoist 0).carried = .none ∧ (released.landing 0).record = some recordOne ∧
      0 < recordOne.slots.length ∧ (released.hoist 0).config = some hoistConfigOne := by decide +kernel

theorem witness_VerifyStartsASurvey :
    (at_ .ready).Takes head ∧ ((at_ .ready).landing 0).record = some recordOne ∧ ((at_ .ready).landing 0).queue = [] ∧
      ((at_ .ready).landing 0).holder = .none ∧ ((at_ .ready).landing 0).shuttle = .idle ∧
      (∀ c, c = .a ∨ c = .b → recordOne.serves c = true → ((at_ .ready).comp c).state = .supervised) ∧
      (released.comp .a).state ≠ .supervised ∧ (surveyed.landing 0).survey = true := by
  refine ⟨by decide +kernel, by decide +kernel, by decide +kernel, by decide +kernel, by decide +kernel, ?_, by decide +kernel,
    by decide +kernel⟩
  rintro c (rfl | rfl) <;> decide +kernel

theorem witness_ReleaseScopeFreesZones :
    (at_ .parked).Takes head ∧ ((at_ .parked).comp .a).state = .supervised ∧ (released.comp .a).state ≠ .supervised ∧
      (∀ h, ((at_ .parked).hoist h).inCompartment .a = true → ((at_ .parked).hoist h).state = .parked) ∧
      (∀ l, ∀ rec ∈ ((at_ .parked).landing l).record, rec.serves .a = true →
        ((at_ .parked).landing l).queue = [] ∧ ((at_ .parked).landing l).survey = false) ∧
      ((at_ .ready).hoist 0).state ≠ .parked ∧ (surveyed.landing 0).survey = true := by decide +kernel

theorem witness_AdmitScopeDoubtsRecords :
    released.Takes head ∧ (released.comp .a).state ≠ .supervised ∧ (released.comp .a).committed.count ≠ 0 ∧
      (∀ h, (released.hoist h).inCompartment .a = true → (released.hoist h).freshness = .fresh ∧
        ∀ l ∈ (released.hoist h).latest, l.brake = .set) ∧
      (∀ l, ∀ rec ∈ (released.landing l).record, rec.serves .a = true → (released.landing l).queue = []) ∧
      conflictZone tableA (released.candidates .a tableA) = none ∧ released.landingServes 0 .a = true ∧
      released.slotAt 0 1 = .occupied 4 ∧ (released.hoist 0).inCompartment .a = true := by decide +kernel

/-- A hoist whose C lies beyond a lowered floor is admitted to the last zone, the model's choice (log 28). -/
theorem test_admit_beyond_floor :
    let s := { released with shaft := { released.shaft with floor := 40000 } }
    let r := { hoistOne .releasedLocal with latest := some (heldReport 90000 0 .park .set), run := none }
    ((after (.admitScope head 0) { s with hoists := s.hoists.set 0 r }).hoist 0).run = some ⟨3, 3⟩ := by decide +kernel

theorem witness_WeighingSettlesTheLoad :
    ((at_ .ready).hoist 0).latest = some (heldReport 20000 0 .run .lifted) ∧
      ((at_ .ready).hoist 0).config = some hoistConfigOne ∧
      (heldReport 20000 0 .run .lifted).load - hoistConfigOne.tare < 2500 ∧
      2500 ≤ { heldReport 20000 0 .run .lifted with load := 6500 }.load - hoistConfigOne.tare ∧
      ((at_ .ready).mass 4).nominal = some 10000 := by decide +kernel

theorem witness_SurveySettlesASlot :
    surveyed.shuttleAt 41 = some 0 ∧ (surveyed.landing 0).holder = .survey ∧ (surveyed.landing 0).queue = [] ∧
      recordOne.slots.length ≤ [(0 : Byte), 5, 0, 0].length ∧
      (surveyed.landing 0).record = some recordOne ∧ 3 < recordOne.slots.length ∧ surveyed.slotAt 0 3 = .blocked none ∧
      surveyed.slotAt 0 0 = .empty ∧ surveyed.slotAt 0 2 = .unverified none ∧ surveyed.slotAt 0 1 = .occupied 4 ∧
      (surveyed.mass 4).status.place = some (.slot 0 1) ∧ 96 < (97 : Byte).toNat ∧ (97 : Byte) ≠ 255 ∧
      (5 : Byte).toNat = (4 : MassId).val + 1 ∧ (∀ y, ∀ v ∈ (surveyed.landing y).queue, v.mass ≠ some 4) ∧
      (96 : Byte).toNat = (95 : MassId).val + 1 ∧ (surveyed.mass 95).status = .absent ∧
      (surveyed.mass 4).status = .placed (.slot 0 1) ∧ Place.slot 0 1 ≠ .slot 0 0 ∧
      (let t := { surveyed with
          landings := surveyed.landings.set 1 { landingOne with queue := [{ deposit .stuck with mass := some 4 }] } }
       t.slotAt 0 1 = .occupied 4 ∧ (t.mass 4).status.place = some (.slot 0 1) ∧
         ∃ v ∈ (t.landing 1).queue, v.mass = some 4) := by decide +kernel

/-- M5, PLACED in slot 1 and found in slot 0, leaves slot 0 BLOCKED and slot 1 in doubt (R154). -/
theorem test_survey_astray : ((surveyed.reconcileSlot 0 0 5).slotAt 0 0, (surveyed.reconcileSlot 0 0 5).slotAt 0 1,
    ((surveyed.reconcileSlot 0 0 5).mass 4).status) =
      (.blocked (some 4), .unverified none, .uncertain (some (.slot 0 0))) := by decide +kernel

theorem witness_QueriesOnlyAnswer :
    (at_ .ready).Takes head ∧ (1 : Byte).toNat = Compartment.b.code ∧ (48 : Byte).toNat ≤ 48 ∧
      (3 : Byte).toNat ≤ ((at_ .ready).comp .a).committed.count ∧ ((at_ .ready).comp .a).committed.count < (4 : Byte).toNat ∧
      ((at_ .ready).hoist 0).config = some hoistConfigOne ∧ ((at_ .ready).hoist 5).config = none ∧
      (16 : Byte).toNat = (15 : LandingId).val + 1 ∧ ((at_ .ready).landing 15).record = none ∧
      ((at_ .ready).landing 0).record = some recordOne ∧ (96 : Byte).toNat = (95 : MassId).val + 1 ∧ 96 < (97 : Byte).toNat ∧
      deposit .latching ∈ ((docked .latching).landing 0).queue ∧ (deposit .latching).mass = some 5 ∧
      ∀ y, ∀ u ∈ ((docked .latching).landing y).queue, u.mass = some 5 → y = 0 ∧ u = deposit .latching := by decide +kernel

theorem witness_ProveAndProofWrite :
    (at_ .parked).Takes head ∧ ((at_ .parked).hoist 0).config = some hoistConfigOne ∧
      ((at_ .parked).hoist 0).state = .parked ∧ ((at_ .parked).hoist 0).freshness = .fresh ∧
      (720 : Half).toNat ≤ 720 ∧ 720 < (721 : Half).toNat ∧ 500 ≤ (500 : Half).toNat ∧ (5000 : Half).toNat ≤ 5000 ∧
      ((at_ .ready).hoist 0).lastPass = some 0 ∧ (∀ l ∈ ((at_ .ready).hoist 0).latest, l.envWarning = false) ∧
      (State.reset.hoist 0).lastPass = none ∧ (at_ .ready).degradedCeiling ≠ (500 : Half).toNat := by decide +kernel

theorem witness_SettingsAreWritten :
    State.reset.Takes head ∧ (8191 : Half).toNat < 8192 ∧ 8192 ≤ (8192 : Half).toNat ∧ (1 : Byte).toNat ≤ 1 ∧
      1 < (2 : Byte).toNat ∧ timerFault ⟨50, 1000, 30, 5, 2000, 200, 60, 300, 1, 120, 20⟩ = none ∧
      timerFault ⟨50, 1000, 30, 5, 2000, 200, 60, 300, 1, 120, 21⟩ = some 11 := by decide +kernel

theorem witness_StatusReportsAndClears :
    State.reset.Takes head ∧ State.reset.latched = 0 ∧ (after (.frameDropped .uplink brokenFrame) State.reset).latched = 0x800 := by
  decide +kernel

theorem witness_RecordsReadAndLogControl :
    State.reset.Takes head ∧ State.reset.records = [] ∧
      ((at_ .moving).recordOf 0 ⟨21000, .down, false, 15000, 0, false, false, false, none, true⟩ .stopped) ::
        [] = [⟨0, .stopped, 15000, 20000, 21000, 0, .none, false, false, false, 0⟩] ∧ 1 < (2 : Byte).toNat := by
  decide +kernel

theorem witness_EnvelopeIsTheGreatestSafeSpeed :
    (hoistOne .moving).config = some hoistConfigOne ∧ (hoistOne .moving).state = .moving ∧
      (hoistOne .ready).state = .ready ∧ (hoistOne .parked).state ≠ .ready ∧ (hoistOne .parked).state ≠ .moving := by
  decide +kernel

theorem witness_FramesReadBack :
    (Instr.move head 1 40000 1).wellFormed 9 = true ∧
      commandFrame (.move head 1 40000 1) =
        some (.uplink, makeFrame 9 0x41 [7, 0x20, 1, 0, 0, 0x9C, 0x40, 1]) ∧
      ∀ o x, Instr.move head 1 40000 1 = .restart o x → x = 9 := ⟨by decide, by decide +kernel, fun _ _ h => by cases h⟩

end Sys2Proof.Tests
end

/-! ## A table that names a landing of the other compartment -/

namespace Sys2Proof.Machine

/-- One zone from the collar to the floor that names L1. -/
def strayTable : ZoneTable := ⟨1, Vector.replicate 48 ⟨0, 0, .landing 0⟩⟩

/-- L1 serves compartment B alone, with empty slots. -/
def strayLanding : Landing :=
  { Landing.initial with record := some ⟨20000, .sequential, false, true, 41, List.replicate 4 .empty, 0⟩ }

/-- Compartment A is SUPERVISED on a table that names L1, while L1 serves B alone, and the removal of L1 waits. -/
def strayState : State :=
  { State.reset with
    compA := ⟨.supervised, strayTable, strayTable, .isolate, .stop⟩
    landings := State.reset.landings.set 0 strayLanding
    pending := [.landingRemove ⟨9, 7⟩ 1 0 0 0 0] }

theorem strayState_hoist (h : HoistId) : strayState.hoist h = Hoist.initial := by
  revert h; decide +kernel

theorem strayState_landing (l : LandingId) :
    strayState.landing l = if l = 0 then strayLanding else Landing.initial := by
  revert l; decide +kernel

theorem strayState_queue (l : LandingId) : (strayState.landing l).queue = [] := by
  rw [strayState_landing]; split <;> rfl

theorem strayState_following : strayState.Following := fun h => by rw [strayState_hoist]; rfl

/-- No hoist is configured, none has a run, a move or an extent. -/
theorem strayState_claimsSound : strayState.ClaimsSound where
  outside h := by simp [strayState_hoist, Hoist.initial]
  moves h := by simp [strayState_hoist, Hoist.initial, Hoist.moveOpen]
  pends h := by simp [strayState_hoist, Hoist.initial]
  extents h := by simp [strayState_hoist, Hoist.initial, Hoist.ExtentOk]
  shared x y c := by simp [strayState_hoist, Hoist.initial, Hoist.inCompartment]
  awaited h k z := by simp [strayState_hoist, Hoist.initial]

/-- Every queue is empty and no landing is under survey. -/
theorem strayState_handoversSound : strayState.HandoversSound where
  one := by rw [show strayState.handovers = [] by decide +kernel]; exact List.nodup_nil
  docked h := by simp [strayState_hoist, Hoist.initial]
  each l v := by simp [strayState_queue]
  two l := by simp [strayState_queue]
  sides l v := by simp [strayState_queue]
  holder l h := by rw [strayState_landing]; split <;> simp [strayLanding, Landing.initial]
  survey l := by rw [strayState_landing]; split <;> simp [strayLanding, Landing.initial]
  surveyed l := by rw [strayState_landing]; split <;> simp [strayLanding, Landing.initial]
  serves l rec := by
    rw [strayState_landing]
    split
    · rintro ⟨⟩; exact .inr rfl
    · rintro ⟨⟩
  granted l := by simp [strayState_queue]

theorem strayState_runsHeld : strayState.RunsHeld where
  tables c n := by
    cases c with
    | a =>
      refine ⟨by decide +kernel, fun z low high => ?_⟩
      obtain rfl : z = 1 := le_antisymm high low
      decide +kernel
    | b => exact absurd rfl n
  present c n := by
    cases c with
    | a => decide +kernel
    | b => cases n
  heard h := by simp [strayState_hoist, Hoist.initial]
  spans h l := by simp [strayState_hoist, Hoist.initial]
  held h := by simp [strayState_hoist, Hoist.initial, HoistState.supervised]

/-- Refutes O9: LANDING_WRITE with a slot count of 0 tests the compartments that the landing serves (R18) and empties every
committed table that names it. Nothing the statement supposes ties the two, and where the table of a SUPERVISED compartment
names a landing that serves the other one alone, the removal empties it under supervision. No run reaches such a state: R10
and R17 keep a table's landings among those that serve its compartment, a premise the statement leaves out. -/
theorem not_runsHeldByEveryStep : ¬ Obligations.RunsHeldByEveryStep := by
  intro kept
  have held := kept strayState _ strayState_following strayState_claimsSound strayState_handoversSound
    strayState_runsHeld rfl
  exact held.present .a (by decide +kernel) (by decide +kernel)

end Sys2Proof.Machine

section
/-! ## What the orders share: operands, answers and tables that are emptied -/

namespace Sys2Proof.Machine

/-! ### Operands -/

theorem numbered_eq_some {n : Nat} {b : Byte} {i : Fin n} (e : b.toNat = i.val + 1) : numbered n b = some i := by
  unfold numbered
  rw [dif_pos (by omega)]
  exact congrArg some (Fin.ext (by show b.toNat - 1 = i.val; omega))

theorem numbered_eq_none {n : Nat} {b : Byte} (e : b.toNat = 0 ∨ n < b.toNat) : numbered n b = none :=
  dif_neg (by omega)

theorem compartmentOf_eq_some {b : Byte} {c : Compartment} (e : b.toNat = c.code) : compartmentOf b = some c := by
  have : b = BitVec.ofNat 8 c.code := BitVec.eq_of_toNat_eq (by rw [e]; cases c <;> rfl)
  rw [this]
  cases c <;> rfl

theorem compartmentOf_eq_none {b : Byte} (e : 1 < b.toNat) : compartmentOf b = none := by
  have a : b ≠ 0 := by rintro rfl; simp at e
  have b : b ≠ 1 := by rintro rfl; simp at e
  unfold compartmentOf
  rw [if_neg a, if_neg b]

/-! ### Answers -/

/-- An ORDER the part takes leaves what its body leaves, and the ANSWER of its body's reply behind it. -/
theorem order_answered {s t : State} {o : OrderHead} {code : Byte} {body : State → State × Reply} {r : Result} {d : Nat}
    {data : List Byte} (e : s.Takes o) (does : body (s.received .uplink) = (t.received .uplink, ⟨r, d, data⟩)) :
    order s o code body = .next (t.answered o code r d data) := by
  rw [order_taken s o code body e, does]
  rfl

/-! ### A compartment changed -/

theorem State.modComp_received (s : State) (c : Compartment) (f : CompartmentRec → CompartmentRec) :
    (s.received .uplink).modComp c f = (s.modComp c f).received .uplink := by cases c <;> rfl

theorem State.modComp_only (s : State) (c : Compartment) (f : CompartmentRec → CompartmentRec) :
    s.modComp c f = { s with compA := (s.modComp c f).compA, compB := (s.modComp c f).compB } := by cases c <;> rfl

/-! ### Tables that are emptied -/

/-- The committed tables are as they were but for their counts: 0 in the compartments where `bad` holds. -/
def State.Empties (bad : Compartment → Prop) (s t : State) : Prop :=
  t = { s with
    compA := { s.compA with committed := { s.compA.committed with count := t.compA.committed.count } }
    compB := { s.compB with committed := { s.compB.committed with count := t.compB.committed.count } } } ∧
  ∀ c, (bad c → (t.comp c).committed.count = 0) ∧
    (¬bad c → (t.comp c).committed.count = (s.comp c).committed.count)

/-- The committed tables of the compartments chosen are emptied. -/
def State.emptyTables (s : State) (chosen : Compartment → Bool) : State :=
  let s := if chosen .a = true then s.emptyTable .a else s
  if chosen .b = true then s.emptyTable .b else s

theorem State.emptyTables_received (s : State) (chosen : Compartment → Bool) :
    (s.received .uplink).emptyTables chosen = (s.emptyTables chosen).received .uplink := by
  unfold State.emptyTables
  cases chosen .a <;> cases chosen .b <;> rfl

theorem State.emptyTables_empties (s : State) {chosen : Compartment → Bool} {bad : Compartment → Prop}
    (same : ∀ c, chosen c = true ↔ bad c) : s.Empties bad (s.emptyTables chosen) := by
  have a := same .a
  have b := same .b
  refine ⟨?_, fun c => ?_⟩
  · unfold State.emptyTables
    cases chosen .a <;> cases chosen .b <;> rfl
  · rw [← same]
    unfold State.emptyTables
    cases c <;> cases chosen .a <;> cases chosen .b <;> simp [State.emptyTable, State.modComp, State.setComp, State.comp]

/-! ### Zones of a table -/

theorem ZoneTable.mem_zones {t : ZoneTable} {z : Nat} : z ∈ t.zones ↔ 1 ≤ z ∧ z ≤ t.count := by
  unfold ZoneTable.zones
  rw [List.mem_range'_1]
  omega

theorem ZoneTable.find_zones_eq_none {t : ZoneTable} {p : Nat → Bool} :
    t.zones.find? p = none ↔ ∀ z, 1 ≤ z → z ≤ t.count → ¬p z = true := by
  simp [List.find?_eq_none, ZoneTable.mem_zones]

/-- The first zone that a search finds. -/
theorem ZoneTable.find_zones_eq_some {t : ZoneTable} {p : Nat → Bool} {z : Nat} :
    t.zones.find? p = some z ↔ (1 ≤ z ∧ z ≤ t.count) ∧ p z = true ∧ ∀ y, 1 ≤ y → y < z → ¬p y = true := by
  unfold ZoneTable.zones
  rw [List.find?_range'_eq_some]
  simp only [List.mem_range'_1, Bool.not_eq_eq_eq_not, Bool.not_true, Bool.not_eq_true]
  constructor
  · rintro ⟨a, b, c⟩; exact ⟨by omega, a, c⟩
  · rintro ⟨b, a, c⟩; exact ⟨a, by omega, c⟩

theorem ZoneTable.names_iff {t : ZoneTable} {l : LandingId} :
    t.names l = true ↔ ∃ z, 1 ≤ z ∧ z ≤ t.count ∧ (t.entry z).kind = .landing l := by
  simp [ZoneTable.names, ZoneTable.namesAt, ZoneTable.mem_zones, and_assoc]

theorem ZoneTable.lengthFault_isSome {t : ZoneTable} {floor : Nat} :
    (t.lengthFault floor).isSome = true ↔ ∃ z, 1 ≤ z ∧ z ≤ t.count ∧ t.lower floor z < t.upper z + 2000 := by
  simp only [ZoneTable.lengthFault, List.find?_isSome, ZoneTable.mem_zones, and_assoc, decide_eq_true_eq]
  rfl

/-! ### Lists of all hoists and all landings -/

theorem mem_allHoists (h : HoistId) : h ∈ allHoists := by revert h; decide

theorem mem_allLandings (l : LandingId) : l ∈ allLandings := by revert l; decide

theorem State.sillReaches_iff {s : State} {floor : Nat} :
    s.sillReaches floor = true ↔ ∃ l rec, (s.landing l).record = some rec ∧ floor ≤ rec.sill := by
  unfold State.sillReaches
  simp only [List.any_eq_true, mem_allLandings, true_and]
  refine exists_congr fun l => ?_
  cases (s.landing l).record <;> simp

theorem State.otherShuttle_iff {s : State} {l : LandingId} {station : Nat} :
    s.otherShuttle l station = true ↔ ∃ k rec, k ≠ l ∧ (s.landing k).record = some rec ∧ rec.station = station := by
  unfold State.otherShuttle
  simp only [List.any_eq_true, mem_allLandings, true_and]
  refine exists_congr fun k => ?_
  cases (s.landing k).record <;> simp

theorem State.isDrive_iff {s : State} {station : Nat} :
    s.isDrive station = true ↔ ∃ h k, (s.hoist h).config = some k ∧ k.driveStation = station := by
  unfold State.isDrive
  simp only [List.any_eq_true, mem_allHoists, true_and]
  refine exists_congr fun h => ?_
  cases (s.hoist h).config <;> simp

/-! ### Supervision -/

theorem State.supervised_iff {s : State} {c : Compartment} : s.supervised c = true ↔ (s.comp c).state = .supervised := by
  simp [State.supervised]

end Sys2Proof.Machine
end

section
/-! ## SHAFT_WRITE -/

namespace Sys2Proof.Machine

theorem shaftRange_iff {floor tally guard separation : Nat} :
    shaftRange floor tally guard separation = true ↔ 10000 ≤ floor ∧ floor ≤ 1600000 ∧ guard ≤ 5000 ∧
      1000 ≤ separation ∧ separation ≤ 20000 ∧ tally ≤ floor := by
  simp only [shaftRange, Bool.and_eq_true, decide_eq_true_eq, and_assoc]
  rfl

theorem State.shaftWrite_supervised {s : State} (held : s.compA.state = .supervised ∨ s.compB.state = .supervised)
    (floor tally guard separation : Nat) :
    s.shaftWrite floor tally guard separation = s.refuse .state := by
  have : s.supervised .a = true ∨ s.supervised .b = true := held.imp State.supervised_iff.2 State.supervised_iff.2
  simp only [State.shaftWrite, if_pos this]

theorem not_supervised_pair {s : State} (a : s.compA.state ≠ .supervised) (b : s.compB.state ≠ .supervised) :
    ¬(s.supervised .a = true ∨ s.supervised .b = true) :=
  fun h => h.elim (fun x => a (State.supervised_iff.1 x)) fun x => b (State.supervised_iff.1 x)

theorem State.shaftWrite_range {s : State} {floor tally guard separation : Nat} (a : s.compA.state ≠ .supervised)
    (b : s.compB.state ≠ .supervised)
    (bad : shaftRange floor tally guard separation = false ∨ s.sillReaches floor = true) :
    s.shaftWrite floor tally guard separation = s.refuse .range := by
  simp only [State.shaftWrite, if_neg (not_supervised_pair a b)]
  rcases bad with bad | bad <;> simp [bad]

theorem State.emptyIfShort_eq (s : State) (c : Compartment) :
    s.emptyIfShort c =
      if ((s.comp c).committed.lengthFault s.shaft.floor).isSome = true then s.emptyTable c else s := by
  unfold State.emptyIfShort
  cases (s.comp c).committed.lengthFault s.shaft.floor <;> rfl

/-- Emptying compartment A's table has no bearing on the test of compartment B's. -/
theorem State.emptyIfShort_both (s : State) :
    (s.emptyIfShort .a).emptyIfShort .b =
      s.emptyTables fun c => ((s.comp c).committed.lengthFault s.shaft.floor).isSome := by
  have other : (s.emptyIfShort .a).comp .b = s.comp .b ∧ (s.emptyIfShort .a).shaft = s.shaft := by
    unfold State.emptyIfShort; split <;> exact ⟨rfl, rfl⟩
  rw [State.emptyIfShort_eq, other.1, other.2, State.emptyIfShort_eq]
  rfl

theorem State.shaftWrite_writes {s : State} {floor tally guard separation : Nat} (a : s.compA.state ≠ .supervised)
    (b : s.compB.state ≠ .supervised) (fits : shaftRange floor tally guard separation = true)
    (above : s.sillReaches floor = false) :
    s.shaftWrite floor tally guard separation =
      (State.emptyTables { s with shaft := ⟨floor, tally, guard, separation⟩ } fun c =>
        ((s.comp c).committed.lengthFault floor).isSome).accept := by
  simp only [State.shaftWrite, if_neg (not_supervised_pair a b), fits, above, State.emptyIfShort_both]
  rfl

/-- Settles O33, by the branches of SHAFT_WRITE. -/
theorem shaftWriteSetsAll : Obligations.ShaftWriteSetsAll := by
  intro o floor tally guard separation s takes x short out
  refine ⟨fun held => ?_, fun a b => ⟨fun bad => ?_, fun low high g p q t sills => ?_⟩⟩
  · exact order_answered takes (State.shaftWrite_supervised (s := s.received .uplink) held ..)
  · refine order_answered takes (State.shaftWrite_range (s := s.received .uplink) a b ?_)
    exact bad.imp (fun n => Bool.eq_false_iff.2 fun y => n (shaftRange_iff.1 y)) State.sillReaches_iff.2
  · have above : s.sillReaches x = false := Bool.eq_false_iff.2 fun y =>
      have ⟨l, rec, e, le⟩ := State.sillReaches_iff.1 y
      absurd (sills l rec e) (Nat.not_lt.2 le)
    have emptied := State.emptyTables_empties { s with shaft := ⟨x, tally.toNat, guard.toNat, separation.toNat⟩ }
      (chosen := fun c => ((s.comp c).committed.lengthFault x).isSome) (bad := fun c => short (s.comp c).committed)
      fun c => ZoneTable.lengthFault_isSome
    refine ⟨_, order_answered takes ?_, emptied.1, emptied.2⟩
    refine (State.shaftWrite_writes (s := s.received .uplink) a b (shaftRange_iff.2 ⟨low, high, g, p, q, t⟩) above).trans ?_
    simp only [State.comp_received]
    exact congrArg State.accept (State.emptyTables_received { s with shaft := _ } _)

end Sys2Proof.Machine
end

section
/-! ## ZONE_WRITE -/

namespace Sys2Proof.Machine

theorem Compartment.exists_code {b : Byte} (e : b.toNat < 2) : ∃ c : Compartment, b.toNat = c.code := by
  have : b.toNat = 0 ∨ b.toNat = 1 := by omega
  exact this.elim (fun x => ⟨.a, x⟩) fun x => ⟨.b, x⟩

theorem zoneKindOf_eq_some {kind landing : Byte} {k : ZoneKind} (code : k.code = kind.toNat)
    (at_landing : kind = 1 → k.landingCode = landing.toNat) : zoneKindOf kind landing = some k := by
  have kind_eq : kind = BitVec.ofNat 8 k.code := BitVec.eq_of_toNat_eq (by rw [← code]; cases k <;> rfl)
  cases k with
  | plain => subst kind_eq; rfl
  | barred => subst kind_eq; rfl
  | landing l =>
    have found : landingOf landing = some l := numbered_eq_some (at_landing kind_eq).symm
    subst kind_eq
    simp [zoneKindOf, ZoneKind.code, found]

theorem zoneKindOf_eq_none {kind landing : Byte}
    (unknown : ¬(kind = 0 ∨ (kind = 1 ∧ 1 ≤ landing.toNat ∧ landing.toNat ≤ 16) ∨ kind = 2)) :
    zoneKindOf kind landing = none := by
  simp only [not_or] at unknown
  obtain ⟨plain, stray, barred⟩ := unknown
  unfold zoneKindOf
  rw [if_neg plain, if_neg barred]
  split
  · rename_i one
    have : landingOf landing = none := numbered_eq_none <| by
      by_contra inside
      exact stray ⟨one, by omega, by omega⟩
    rw [this]
  · rfl

theorem ZoneTable.entry_eq {t : ZoneTable} {z : Nat} (low : 1 ≤ z) (high : z ≤ 48) :
    t.entry z = t.entries[z - 1] := by
  unfold ZoneTable.entry
  rw [List.getD_eq_getElem _ _ (by simp; omega)]
  simp

/-- One entry overwritten (R6). -/
theorem ZoneTable.entry_setEntry (t : ZoneTable) {i z : Nat} (e : ZoneEntry) (ilow : 1 ≤ i) (low : 1 ≤ z)
    (high : z ≤ 48) :
    ZoneTable.entry { t with entries := t.entries.setIfInBounds (i - 1) e } z = if z = i then e else t.entry z := by
  rw [ZoneTable.entry_eq low high, ZoneTable.entry_eq low high, Vector.getElem_setIfInBounds]
  have : i - 1 = z - 1 ↔ z = i := by omega
  simp only [this]

theorem State.zoneWriteEntry_target (s : State) {c : Byte} (i u ceiling : Nat) (kind landing : Byte) (e : 2 ≤ c.toNat) :
    s.zoneWriteEntry c i u ceiling kind landing = s.refuse .target := by
  unfold State.zoneWriteEntry
  rw [compartmentOf_eq_none e]

theorem State.zoneWriteEntry_range (s : State) {c kind landing : Byte} {d : Compartment} {i u : Nat} (ceiling : Nat)
    (comp : c.toNat = d.code) (bad : zoneKindOf kind landing = none ∨ ¬(1 ≤ i ∧ i ≤ 48 ∧ u ≤ Config.maxDepth)) :
    s.zoneWriteEntry c i u ceiling kind landing = s.refuse .range := by
  unfold State.zoneWriteEntry
  rw [compartmentOf_eq_some comp]
  dsimp only
  rcases bad with unknown | outside
  · rw [unknown]
  · split
    · rfl
    · rw [if_neg outside]

theorem State.zoneWriteEntry_writes (s : State) {c kind landing : Byte} {d : Compartment} {i u : Nat} {k : ZoneKind}
    (ceiling : Nat) (comp : c.toNat = d.code) (known : zoneKindOf kind landing = some k) (low : 1 ≤ i) (high : i ≤ 48)
    (depth : u ≤ Config.maxDepth) : s.zoneWriteEntry c i u ceiling kind landing =
      State.accept (s.modComp d fun x => { x with shadow := { x.shadow with
        entries := x.shadow.entries.setIfInBounds (i - 1) ⟨u, min Config.maxCeiling ceiling, k⟩ } }) := by
  unfold State.zoneWriteEntry
  rw [compartmentOf_eq_some comp]
  dsimp only
  rw [known]
  dsimp only
  rw [if_pos ⟨low, high, depth⟩]

theorem State.zoneWriteCount_eq (s : State) {c : Byte} {d : Compartment} (n : Nat) (comp : c.toNat = d.code) :
    s.zoneWriteCount c n =
      if n ≤ 48 then (s.modComp d fun x => { x with shadow := { x.shadow with count := n } }).accept
      else s.refuse .range := by
  unfold State.zoneWriteCount
  rw [compartmentOf_eq_some comp]

/-- Settles O34, by the two forms of ZONE_WRITE and the branches of each. -/
theorem zoneWriteSetsShadow : Obligations.ZoneWriteSetsShadow := by
  refine ⟨fun o c i upper ceiling kind landing s takes => ?_, fun o c n s takes => ?_⟩
  · refine ⟨fun e => ?_, fun e bad => ?_, fun d k comp low high depth code at_landing => ?_⟩
    · exact order_answered takes (State.zoneWriteEntry_target _ _ _ _ _ _ e)
    · obtain ⟨d, comp⟩ := Compartment.exists_code e
      refine order_answered takes (State.zoneWriteEntry_range _ _ comp ?_)
      have split : ¬(1 ≤ i.toNat ∧ i.toNat ≤ 48 ∧ upper.toNat ≤ 1600000) ∨ zoneKindOf kind landing = none := by
        rcases bad with zero | beyond | deep | unknown
        · exact .inl (by omega)
        · exact .inl (by omega)
        · exact .inl (by omega)
        · exact .inr (zoneKindOf_eq_none unknown)
      exact split.symm
    · refine ⟨_, order_answered takes ((State.zoneWriteEntry_writes _ _ comp.symm (zoneKindOf_eq_some code at_landing)
        low high depth).trans (congrArg State.accept (State.modComp_received ..))), ?_, ?_, ?_, ?_, ?_⟩
      · intro z zlow zhigh
        rw [State.modComp_comp_self]
        exact ZoneTable.entry_setEntry _ _ low zlow zhigh
      · rw [State.modComp_comp_self]
      · exact fun e ne => State.modComp_comp_ne _ ne _
      · rw [State.modComp_comp_self]
      · exact State.modComp_only ..
  · refine ⟨fun e => ?_, fun e beyond => ?_, fun e fits => ?_, fun e fits => ?_⟩
    · refine order_answered takes ?_
      unfold State.zoneWriteCount
      rw [compartmentOf_eq_none e]
      rfl
    · obtain ⟨d, comp⟩ := Compartment.exists_code e
      refine order_answered takes ((State.zoneWriteCount_eq _ _ comp).trans ?_)
      rw [if_neg (Nat.not_le.2 beyond)]
      rfl
    · subst e
      refine order_answered takes ((State.zoneWriteCount_eq (d := .a) _ _ rfl).trans ?_)
      rw [if_pos fits]
      rfl
    · subst e
      refine order_answered takes ((State.zoneWriteCount_eq (d := .b) _ _ rfl).trans ?_)
      rw [if_pos fits]
      rfl

end Sys2Proof.Machine
end

section
/-! ## LANDING_WRITE and its removal -/

namespace Sys2Proof.Machine

/-! ### The checks -/

theorem orderModeOf_eq_some {b : Byte} {m : OrderMode} (e : b.toNat = m.code) : orderModeOf b = some m := by
  have : b = BitVec.ofNat 8 m.code := BitVec.eq_of_toNat_eq (by rw [e]; cases m <;> rfl)
  rw [this]
  cases m <;> rfl

theorem State.servesSupervised_eq_false {s : State} {a b : Bool} (outA : a = true → s.compA.state ≠ .supervised)
    (outB : b = true → s.compB.state ≠ .supervised) : s.servesSupervised a b = false := by
  have inA : s.supervised .a = true → s.compA.state = .supervised := State.supervised_iff.1
  have inB : s.supervised .b = true → s.compB.state = .supervised := State.supervised_iff.1
  unfold State.servesSupervised
  rw [Bool.or_eq_false_iff, Bool.and_eq_false_imp, Bool.and_eq_false_imp]
  exact ⟨fun x => Bool.eq_false_iff.2 fun y => outA x (inA y), fun x => Bool.eq_false_iff.2 fun y => outB x (inB y)⟩

theorem State.recordSupervised_eq_false {s : State} {l : LandingId}
    (out : ∀ rec, (s.landing l).record = some rec → (rec.servesA = true → s.compA.state ≠ .supervised) ∧
      (rec.servesB = true → s.compB.state ≠ .supervised)) : s.recordSupervised l = false := by
  unfold State.recordSupervised
  split
  · rename_i rec e
    exact State.servesSupervised_eq_false (out rec e).1 (out rec e).2
  · rfl

theorem State.landingHolds_eq_false {s : State} {l : LandingId}
    (empty : ∀ rec, (s.landing l).record = some rec → ∀ x ∈ rec.slots, x.names = none) : s.landingHolds l = false := by
  unfold State.landingHolds
  split
  · rename_i rec e
    simpa using empty rec e
  · rfl

theorem State.landingRange_eq_true {s : State} {sill : Nat} {n served : Byte} {station : Nat} {m : OrderMode} (low : 1 ≤ sill)
    (high : sill + 1 ≤ s.shaft.floor) (slots : n = 4 ∨ n = 8)
    (serves : served.getLsbD 0 = true ∨ served.getLsbD 1 = true) (first : 1 ≤ station) (last : station ≤ 62) :
    s.landingRange sill n.toNat (some m) served station = true := by
  have count : (n.toNat == 4 || n.toNat == 8) = true := by rcases slots with rfl | rfl <;> rfl
  simp only [State.landingRange, Bool.and_eq_true, decide_eq_true_eq, Bool.or_eq_true]
  exact ⟨⟨⟨⟨⟨low, high⟩, by simpa using count⟩, rfl⟩, serves⟩, first, last⟩

/-! ### The write -/

theorem LandingRec.formerlyServes_iff {x : Option LandingRec} {c : Compartment} :
    LandingRec.formerlyServes x c = true ↔ ∃ rec, x = some rec ∧ rec.serves c = true := by
  unfold LandingRec.formerlyServes
  cases x <;> simp

theorem State.emptyIfMisfit_eq (s : State) (c : Compartment) :
    s.emptyIfMisfit c =
      if (s.landingFault c (s.comp c).committed).isSome = true then s.emptyTable c else s := by
  unfold State.emptyIfMisfit
  cases s.landingFault c (s.comp c).committed <;> rfl

/-- The landing with its record, no holder and an unknown shuttle. -/
def State.withRecord (s : State) (l : LandingId) (rec : LandingRec) : State :=
  s.modLanding l fun x => { x with record := some rec, shuttle := .unknown, holder := .none }

/-- The compartments whose committed table a landing's new record empties (R17). -/
def State.misfits (s : State) (l : LandingId) (rec : LandingRec) (c : Compartment) : Bool :=
  (LandingRec.formerlyServes (s.landing l).record c || rec.serves c) &&
    ((s.withRecord l rec).landingFault c (s.comp c).committed).isSome

/-- A compartment that is concerned is tested, and emptied where it fails. -/
theorem State.emptyIfMisfit_if (s : State) (c : Compartment) (concerned : Bool) :
    (if concerned = true then s.emptyIfMisfit c else s) =
      if (concerned && (s.landingFault c (s.comp c).committed).isSome) = true then s.emptyTable c else s := by
  rw [State.emptyIfMisfit_eq]
  cases concerned <;> rfl

/-- Emptying compartment A's table has no bearing on the test of compartment B's. -/
theorem State.defineLanding_eq (s : State) (l : LandingId) (rec : LandingRec) :
    s.defineLanding l rec = (s.withRecord l rec).emptyTables (s.misfits l rec) := by
  have other : ∀ p : Bool, ∀ x, x = (if p = true then (s.withRecord l rec).emptyTable .a else s.withRecord l rec) →
      x.landingFault .b (x.comp .b).committed = (s.withRecord l rec).landingFault .b (s.comp .b).committed := by
    rintro p x rfl
    cases p <;> rfl
  have tested := (s.withRecord l rec).emptyIfMisfit_if .a (LandingRec.formerlyServes (s.landing l).record .a || rec.servesA)
  have steps : s.defineLanding l rec =
      (fun x => if (LandingRec.formerlyServes (s.landing l).record .b || rec.servesB) = true then x.emptyIfMisfit .b else x)
        (if (LandingRec.formerlyServes (s.landing l).record .a || rec.servesA) = true then
          (s.withRecord l rec).emptyIfMisfit .a else s.withRecord l rec) := rfl
  rw [steps, tested]
  dsimp only
  rw [State.emptyIfMisfit_if, other _ _ rfl]
  rfl

theorem State.misfits_received (s : State) (l : LandingId) (rec : LandingRec) :
    (s.received .uplink).misfits l rec = s.misfits l rec := by
  funext c
  unfold State.misfits
  rw [State.comp_received]
  rfl

theorem State.landingWrite_writes {s : State} {b mode served : Byte} {l : LandingId} {m : OrderMode} {sill slots station : Nat}
    (at_ : b.toNat = l.val + 1) (code : mode.toNat = m.code)
    (range : s.landingRange sill slots (some m) served station = true) (free : s.recordSupervised l = false)
    (out : s.servesSupervised (served.getLsbD 0) (served.getLsbD 1) = false) (bare : s.landingHolds l = false)
    (alone : ¬(station = s.strapAddress.toNat ∨ s.otherShuttle l station = true ∨ s.isDrive station = true)) :
    s.landingWrite b sill slots mode served station = (s.defineLanding l
      ⟨sill, m, served.getLsbD 0, served.getLsbD 1, station, List.replicate slots .empty, 0⟩).accept := by
  unfold State.landingWrite
  rw [show landingOf b = some l from numbered_eq_some at_, orderModeOf_eq_some code]
  dsimp only
  rw [if_neg (by simp [range]), if_neg (by rw [free, out]; decide), if_neg (by simp [bare]), if_neg alone]

/-! ### The removal -/

theorem State.landingRemove_undefined {s : State} {b : Byte} {l : LandingId} (at_ : b.toNat = l.val + 1)
    (none_ : (s.landing l).record = none) : s.landingRemove b = s.accept := by
  have free : s.recordSupervised l = false := by unfold State.recordSupervised; rw [none_]
  have bare : s.landingHolds l = false := by unfold State.landingHolds; rw [none_]
  unfold State.landingRemove
  rw [show landingOf b = some l from numbered_eq_some at_]
  simp [free, bare, none_]

theorem State.landingRemove_defined {s : State} {b : Byte} {l : LandingId} {rec : LandingRec} (at_ : b.toNat = l.val + 1)
    (free : s.recordSupervised l = false) (bare : s.landingHolds l = false) (defined : (s.landing l).record = some rec) :
    s.landingRemove b =
      ((s.setLanding l .initial).emptyTables fun c => (s.comp c).committed.names l).accept := by
  unfold State.landingRemove
  rw [show landingOf b = some l from numbered_eq_some at_]
  simp only [free, bare, defined]
  have other : ∀ p : Bool, (State.comp (if p = true then (s.setLanding l .initial).emptyTable .a else
      s.setLanding l .initial) .b).committed = (s.comp .b).committed := by
    intro p
    cases p <;> rfl
  have tableA : ((s.setLanding l .initial).comp .a).committed = (s.comp .a).committed := rfl
  simp only [Option.isNone_some, Bool.false_eq_true, if_false, tableA, other]
  rfl

/-- Settles O36, by the branches of LANDING_WRITE and of its removal. -/
theorem landingWriteAndRemove : Obligations.LandingWriteAndRemove := by
  intro o b sill n mode served station l s takes at_
  refine ⟨?_, fun undefined => ?_, ?_⟩
  · intro m low high slots code serves first last outA outB bare strap shuttles drives made written
    have emptied := State.emptyTables_empties (s.withRecord l made) (chosen := s.misfits l made)
      (bad := fun c => (made.serves c = true ∨ ∃ x, (s.landing l).record = some x ∧ x.serves c = true) ∧
        written.landingFault c (s.comp c).committed ≠ none) fun c => by
      unfold State.misfits
      rw [Bool.and_eq_true, Bool.or_eq_true, LandingRec.formerlyServes_iff, Option.isSome_iff_ne_none, or_comm]
      rfl
    refine ⟨_, order_answered takes ?_, emptied.1, fun c => ⟨fun x y => ?_, fun x => ?_⟩⟩
    · have present : n ≠ 0 := by rcases slots with rfl | rfl <;> decide
      have free : s.recordSupervised l = false := State.recordSupervised_eq_false fun _ _ => ⟨fun _ => outA, fun _ => outB⟩
      have out : s.servesSupervised (served.getLsbD 0) (served.getLsbD 1) = false :=
        State.servesSupervised_eq_false (fun _ => outA) fun _ => outB
      have alone : ¬(station.toNat = s.strapAddress.toNat ∨ s.otherShuttle l station.toNat = true ∨
          s.isDrive station.toNat = true) := by
        rw [State.otherShuttle_iff, State.isDrive_iff]
        rintro (x | ⟨k, rec, ne, e, x⟩ | ⟨h, k, e, x⟩)
        · exact strap x
        · exact shuttles k rec ne e x
        · exact drives h k e x
      refine (if_neg present).trans ((State.landingWrite_writes (s := s.received .uplink) at_ code
        (State.landingRange_eq_true low high slots serves first last) free out (State.landingHolds_eq_false bare)
        alone).trans ?_)
      rw [State.defineLanding_eq, State.misfits_received]
      exact congrArg State.accept (State.emptyTables_received (s.withRecord l made) _)
    · exact (emptied.2 c).1 ⟨x, y⟩
    · exact (emptied.2 c).2 fun y => x.elim (fun z => z y.1) fun z => y.2 z
  · exact order_answered takes (State.landingRemove_undefined (s := s.received .uplink) at_ undefined)
  · intro rec defined outA outB bare named
    have free : s.recordSupervised l = false := State.recordSupervised_eq_false fun x e => by
      cases defined.symm.trans e
      exact ⟨outA, outB⟩
    have empty : s.landingHolds l = false := State.landingHolds_eq_false fun x e => by
      cases defined.symm.trans e
      exact bare
    have emptied := State.emptyTables_empties (s.setLanding l .initial) (bad := fun c => named (s.comp c).committed)
      (chosen := fun c => (s.comp c).committed.names l) fun c => ZoneTable.names_iff
    refine ⟨_, order_answered takes ?_, emptied.1, fun c => ?_⟩
    · refine (State.landingRemove_defined (s := s.received .uplink) at_ free empty defined).trans ?_
      simp only [State.comp_received]
      exact congrArg State.accept (State.emptyTables_received (s.setLanding l .initial) _)
    · simpa using emptied.2 c

end Sys2Proof.Machine
end

section
/-! ## ZONE_COMMIT -/

namespace Sys2Proof.Machine

/-! ### Every hoist changed at once -/

/-- Each hoist replaced by what a function makes of it. -/
def State.mapHoists (s : State) (g : HoistId → Hoist → Hoist) : State :=
  { s with hoists := Vector.ofFn fun h => g h (s.hoist h) }

@[simp] theorem State.hoist_mapHoists (s : State) (g : HoistId → Hoist → Hoist) (h : HoistId) :
    (s.mapHoists g).hoist h = g h (s.hoist h) := by
  simp [State.mapHoists, State.hoist]

theorem State.mapHoists_ext {s t : State} {f g : HoistId → Hoist → Hoist} (rest : { s with hoists := t.hoists } = t)
    (same : ∀ h, f h (s.hoist h) = g h (t.hoist h)) : s.mapHoists f = t.mapHoists g := by
  unfold State.mapHoists
  rw [funext same, ← rest]

theorem State.mapHoists_id (s : State) {g : HoistId → Hoist → Hoist} (id : ∀ h, g h (s.hoist h) = s.hoist h) :
    s.mapHoists g = s := by
  unfold State.mapHoists
  rw [funext id]
  have : (Vector.ofFn fun h : HoistId => s.hoist h) = s.hoists := Vector.ext fun i lt => by simp [State.hoist]
  rw [this]

theorem State.hoistsOf_nodup (s : State) (c : Compartment) : (s.hoistsOf c).Nodup :=
  List.Nodup.filter _ (by decide)

theorem State.mem_hoistsOf {s : State} {c : Compartment} {h : HoistId} :
    h ∈ s.hoistsOf c ↔ (s.hoist h).inCompartment c = true := by
  simp [State.hoistsOf, mem_allHoists]

theorem State.allParked_iff {s : State} {c : Compartment} :
    s.allParked c = true ↔ ∀ h, (s.hoist h).inCompartment c = true → (s.hoist h).state = .parked := by
  simp [State.allParked, State.mem_hoistsOf]

/-! ### The runs set to the spans -/

/-- A PARKED hoist on a run, with no envelope. -/
def Hoist.placed (r : Hoist) (run : Option Run) : Hoist := { r with run := run, envDown := 0, envUp := 0 }

theorem State.recompute_parked {s : State} {h : HoistId} (run : Option Run) (parked : (s.hoist h).state = .parked) :
    (s.modHoist h fun r => { r with run := run }).recompute h = s.setHoist h ((s.hoist h).placed run) := by
  unfold State.recompute
  rw [State.modHoist_modHoist]
  unfold State.modHoist Hoist.placed
  have rest : (Hoist.state { s.hoist h with run := run }).takesVelocity = false := by
    show (s.hoist h).state.takesVelocity = false
    rw [parked]
    rfl
  dsimp only
  rw [State.envelope_rest _ _ rest, State.envelope_rest _ _ rest]

/-- PARKED hoists set to their spans one after another: each gets the zones its span overlaps, the others stay. -/
theorem State.setRuns_parked {c : Compartment} (hs : List HoistId) (nodup : hs.Nodup) (s : State)
    (parked : ∀ h ∈ hs, (s.hoist h).state = .parked) :
    hs.foldl (fun s h => (s.modHoist h fun r => { r with run := s.spanZones (s.comp c).committed r }).recompute h) s =
      s.mapHoists fun h r => if h ∈ hs then r.placed (s.spanZones (s.comp c).committed r) else r := by
  induction hs generalizing s with
  | nil => exact (s.mapHoists_id fun h => by simp).symm
  | cons x xs ih =>
    obtain ⟨fresh, nodup⟩ := List.nodup_cons.1 nodup
    have first : (s.modHoist x fun r => { r with run := s.spanZones (s.comp c).committed r }).recompute x =
        s.setHoist x ((s.hoist x).placed (s.spanZones (s.comp c).committed (s.hoist x))) :=
      State.recompute_parked _ (parked x (List.mem_cons_self ..))
    have others : ∀ h ∈ xs, h ≠ x := fun h m e => fresh (e ▸ m)
    rw [List.foldl_cons, first, ih nodup]
    · refine State.mapHoists_ext rfl fun h => ?_
      rw [State.comp_setHoist, State.setHoist_hoist]
      by_cases e : h = x
      · subst e
        simp [fresh]
      · simp only [e, if_false, List.mem_cons, false_or]
        rfl
    · intro h m
      rw [State.setHoist_hoist_ne _ (others h m)]
      exact parked h (List.mem_cons_of_mem _ m)

theorem State.setRunsToSpans_parked {s : State} {c : Compartment} (parked : s.allParked c = true) :
    s.setRunsToSpans c = s.mapHoists fun h r =>
      if (s.hoist h).inCompartment c = true then r.placed (s.spanZones (s.comp c).committed r) else r := by
  unfold State.setRunsToSpans
  rw [State.setRuns_parked _ (s.hoistsOf_nodup c) s fun h m => State.allParked_iff.1 parked h (State.mem_hoistsOf.1 m)]
  simp only [State.mem_hoistsOf]

/-! ### The committed table takes the shadow -/

theorem ZoneTable.count_commitOver (shadow committed : ZoneTable) :
    (shadow.commitOver committed).count = shadow.count := by
  unfold ZoneTable.commitOver
  exact rfl

theorem ZoneTable.entry_commitOver (shadow committed : ZoneTable) {z : Nat} (low : 1 ≤ z) (high : z ≤ 48) :
    (shadow.commitOver committed).entry z = if z ≤ shadow.count then shadow.entry z else committed.entry z := by
  rw [ZoneTable.entry_eq low high, ZoneTable.entry_eq low high, ZoneTable.entry_eq low high]
  unfold ZoneTable.commitOver
  have : z - 1 < shadow.count ↔ z ≤ shadow.count := by omega
  simp only [Vector.getElem_ofFn, this]

/-- Tables that agree in the zones they have decode alike. -/
theorem ZoneTable.zoneAt_congr {t u : ZoneTable} (count : t.count = u.count)
    (entries : ∀ z, 1 ≤ z → z ≤ u.count → t.entry z = u.entry z) (floor x : Nat) : t.zoneAt floor x = u.zoneAt floor x := by
  have zones : t.zones = u.zones := by unfold ZoneTable.zones; rw [count]
  unfold ZoneTable.zoneAt
  rw [zones]
  refine List.find?_congr fun z m => ?_
  obtain ⟨low, high⟩ := ZoneTable.mem_zones.1 m
  have lower : t.lower floor z = u.lower floor z := by
    unfold ZoneTable.lower ZoneTable.upper
    rw [count]
    exact ite_congr rfl (fun inner => by rw [entries (z + 1) (Nat.le_add_left ..) inner]) fun _ => rfl
  unfold ZoneTable.contains ZoneTable.upper
  rw [lower, entries z low high, count]

theorem State.spanZones_commitOver (s : State) {shadow : ZoneTable} (committed : ZoneTable) (r : Hoist)
    (fits : shadow.count ≤ 48) : s.spanZones (shadow.commitOver committed) r = s.spanZones shadow r := by
  have entries : ∀ z, 1 ≤ z → z ≤ shadow.count → (shadow.commitOver committed).entry z = shadow.entry z := by
    intro z low high
    rw [ZoneTable.entry_commitOver shadow committed low (high.trans fits), if_pos high]
  have same := ZoneTable.zoneAt_congr (ZoneTable.count_commitOver shadow committed) entries s.shaft.floor
  unfold State.spanZones ZoneTable.overlap
  simp only [same]

/-! ### What a search of the zones finds -/

/-- The first zone of a table of which something holds. -/
def ZoneTable.First (t : ZoneTable) (bad : Nat → Prop) (z : Nat) : Prop :=
  (1 ≤ z ∧ z ≤ t.count) ∧ bad z ∧ ∀ y, 1 ≤ y → y < z → ¬bad y

/-- No zone of a table is bad. -/
def ZoneTable.Free (t : ZoneTable) (bad : Nat → Prop) : Prop := ∀ z, 1 ≤ z ∧ z ≤ t.count → ¬bad z

/-- A search for what is bad finds the first such zone, or none. -/
def ZoneTable.Finds (t : ZoneTable) (bad : Nat → Prop) (found : Option Nat) : Prop :=
  (∀ z, t.First bad z → found = some z) ∧ (t.Free bad → found = none)

theorem ZoneTable.find_finds {t : ZoneTable} {p : Nat → Bool} {bad : Nat → Prop}
    (same : ∀ z, 1 ≤ z → z ≤ t.count → (p z = true ↔ bad z)) : t.Finds bad (t.zones.find? p) := by
  refine ⟨fun z ⟨⟨low, high⟩, here, above⟩ => ?_, fun free => ?_⟩
  · refine ZoneTable.find_zones_eq_some.2 ⟨⟨low, high⟩, (same z low high).2 here, fun y ylow lt x => ?_⟩
    exact above y ylow lt ((same y ylow (lt.le.trans high)).1 x)
  · exact ZoneTable.find_zones_eq_none.2 fun z low high x => free z ⟨low, high⟩ ((same z low high).1 x)

/-- A LANDING zone is in its place (R10): its landing serves the compartment, the sill lies in the zone, and no zone above names
it. -/
def State.PlacedLanding (s : State) (c : Compartment) (t : ZoneTable) (z : Nat) (l : LandingId) : Prop :=
  ∃ rec, (s.landing l).record = some rec ∧ rec.serves c = true ∧ t.upper z ≤ rec.sill ∧
    rec.sill < t.lower s.shaft.floor z ∧ ∀ y, 1 ≤ y → y < z → (t.entry y).kind ≠ .landing l

theorem State.landingZoneHolds_iff {s : State} {c : Compartment} {t : ZoneTable} {z : Nat} {l : LandingId}
    (high : z ≤ t.count) : s.landingZoneHolds c t z l = true ↔ s.PlacedLanding c t z l := by
  have above : (!((t.zones.filter fun y => decide (y < z)).any fun y => t.namesAt l y)) = true ↔
      ∀ y, 1 ≤ y → y < z → (t.entry y).kind ≠ .landing l := by
    simp only [Bool.not_eq_true', List.any_eq_false, List.mem_filter, ZoneTable.mem_zones, ZoneTable.namesAt,
      decide_eq_true_eq, beq_iff_eq]
    exact ⟨fun x y low lt => x y ⟨⟨low, by omega⟩, lt⟩, fun x y m => x y m.1.1 m.2⟩
  unfold State.landingZoneHolds State.PlacedLanding
  cases (s.landing l).record with
  | none => simp
  | some rec => simp only [Bool.and_eq_true, decide_eq_true_eq, above, Option.some.injEq, exists_eq_left', and_assoc]

/-- The uncovered landings (R10). -/
def State.Uncovered (s : State) (c : Compartment) (t : ZoneTable) (l : LandingId) : Prop :=
  (∃ rec, (s.landing l).record = some rec ∧ rec.serves c = true) ∧
    ∀ z, 1 ≤ z ∧ z ≤ t.count → (t.entry z).kind ≠ .landing l

theorem State.landingServes_iff {s : State} {l : LandingId} {c : Compartment} :
    s.landingServes l c = true ↔ ∃ rec, (s.landing l).record = some rec ∧ rec.serves c = true := by
  unfold State.landingServes
  cases (s.landing l).record <;> simp

theorem State.uncovered_iff {s : State} {c : Compartment} {t : ZoneTable} {l : LandingId} :
    (s.landingServes l c && !t.names l) = true ↔ s.Uncovered c t l := by
  have unnamed : (!t.names l) = true ↔ ∀ z, 1 ≤ z ∧ z ≤ t.count → (t.entry z).kind ≠ .landing l := by
    rw [Bool.not_eq_true', Bool.eq_false_iff, Ne, ZoneTable.names_iff]
    push Not
    exact ⟨fun x z m => x z m.1 m.2, fun x z low high => x z ⟨low, high⟩⟩
  rw [Bool.and_eq_true, State.landingServes_iff, unnamed]
  rfl

theorem allLandings_eq : allLandings = List.finRange 16 := by decide

theorem State.coverageFault_first {s : State} {c : Compartment} {t : ZoneTable} {l : LandingId}
    (here : s.Uncovered c t l) (before : ∀ y, y < l → ¬s.Uncovered c t y) :
    s.coverageFault c t = some (128 + (l.val + 1)) := by
  have found : allLandings.find? (fun l => s.landingServes l c && !t.names l) = some l := by
    rw [allLandings_eq, List.find?_eq_some_iff_getElem]
    refine ⟨State.uncovered_iff.2 here, l.val, by simp, by simp, fun j lt => ?_⟩
    rw [Bool.not_eq_true', Bool.eq_false_iff, List.getElem_finRange]
    exact fun x => before _ lt (State.uncovered_iff.1 x)
  unfold State.coverageFault
  rw [found]

theorem State.coverageFault_none {s : State} {c : Compartment} {t : ZoneTable} (covered : ∀ l, ¬s.Uncovered c t l) :
    s.coverageFault c t = none := by
  have found : allLandings.find? (fun l => s.landingServes l c && !t.names l) = none :=
    List.find?_eq_none.2 fun l _ x => covered l (State.uncovered_iff.1 x)
  unfold State.coverageFault
  rw [found]

/-! ### Conflicts -/

/-- What makes a zone a conflict (R12): the zones of a hoist's span hold it, and it is BARRED, or another's hold it, or another
of higher rank would stand no lower. -/
def State.Clash (s : State) (c : Compartment) (t : ZoneTable) (z : Nat) : Prop :=
  ∃ h, (s.hoist h).inCompartment c = true ∧ inRun (s.spanZones t (s.hoist h)) z = true ∧
    ((t.entry z).kind = .barred ∨ ∃ y, y ≠ h ∧ (s.hoist y).inCompartment c = true ∧
      (inRun (s.spanZones t (s.hoist y)) z = true ∨
        ((s.hoist h).rank < (s.hoist y).rank ∧ ∃ run, s.spanZones t (s.hoist y) = some run ∧ run.top ≤ z)))

theorem State.mem_candidates {s : State} {c : Compartment} {t : ZoneTable} {x : Candidate} :
    x ∈ s.candidates c t ↔ (s.hoist x.hoist).inCompartment c = true ∧
      s.spanZones t (s.hoist x.hoist) = some x.run ∧ x.rank = (s.hoist x.hoist).rank := by
  obtain ⟨h, rank, run⟩ := x
  simp only [State.candidates, List.mem_filterMap, State.mem_hoistsOf]
  constructor
  · rintro ⟨k, inside, e⟩
    split at e
    · cases e
      exact ⟨inside, ‹_›, rfl⟩
    · cases e
  · rintro ⟨inside, span, rfl⟩
    exact ⟨h, inside, by rw [span]⟩

theorem inRun_iff {run : Option Run} {z : Nat} : inRun run z = true ↔ ∃ r, run = some r ∧ r.holds z = true := by
  cases run <;> simp [inRun]

theorem State.conflictAt_iff {s : State} {c : Compartment} {t : ZoneTable} {z : Nat} :
    conflictAt t (s.candidates c t) z = true ↔ s.Clash c t z := by
  simp only [conflictAt, List.any_eq_true, Bool.and_eq_true, Bool.or_eq_true, State.mem_candidates, bne_iff_ne,
    decide_eq_true_eq, ZoneTable.barred, beq_iff_eq]
  constructor
  · rintro ⟨x, ⟨inside, span, rank⟩, holds, bar⟩
    refine ⟨x.hoist, inside, inRun_iff.2 ⟨_, span, holds⟩, bar.imp_right ?_⟩
    rintro ⟨y, ⟨yin, yspan, yrank⟩, ne, both⟩
    refine ⟨y.hoist, ne, yin, both.imp (fun k => inRun_iff.2 ⟨_, yspan, k⟩) fun ⟨less, top⟩ => ⟨?_, _, yspan, top⟩⟩
    rwa [← rank, ← yrank]
  · rintro ⟨h, inside, holds, bar⟩
    obtain ⟨run, span, holds⟩ := inRun_iff.1 holds
    refine ⟨⟨h, (s.hoist h).rank, run⟩, ⟨inside, span, rfl⟩, holds, bar.imp_right ?_⟩
    rintro ⟨y, ne, yin, both⟩
    rcases both with yholds | ⟨less, yrun, yspan, top⟩
    · obtain ⟨yrun, yspan, yholds⟩ := inRun_iff.1 yholds
      exact ⟨⟨y, (s.hoist y).rank, yrun⟩, ⟨yin, yspan, rfl⟩, ne, .inl yholds⟩
    · exact ⟨⟨y, (s.hoist y).rank, yrun⟩, ⟨yin, yspan, rfl⟩, ne, .inr ⟨less, top⟩⟩

/-! ### The checks in order -/

/-- A boundary out of order (R9). -/
def ZoneTable.Disordered (t : ZoneTable) (z : Nat) : Prop :=
  if z = 1 then t.upper 1 ≠ 0 else t.upper z ≤ t.upper (z - 1)

/-- A zone too short (R9). -/
def ZoneTable.Short (t : ZoneTable) (floor z : Nat) : Prop := t.lower floor z < t.upper z + 2000

/-- A LANDING zone out of its place (R10). -/
def State.Misplaced (s : State) (c : Compartment) (t : ZoneTable) (z : Nat) : Prop :=
  ∃ l, (t.entry z).kind = .landing l ∧ ¬s.PlacedLanding c t z l

section Checks

variable {s : State} {c : Compartment} {t : ZoneTable} {floor : Nat}

theorem ZoneTable.boundaryFault_finds : t.Finds t.Disordered t.boundaryFault := by
  refine ZoneTable.find_finds fun y _ _ => ?_
  unfold ZoneTable.Disordered
  split <;> exact decide_eq_true_iff

theorem ZoneTable.lengthFault_finds : t.Finds (t.Short floor) (t.lengthFault floor) :=
  ZoneTable.find_finds fun _ _ _ => decide_eq_true_iff

theorem State.landingZoneFault_finds : t.Finds (s.Misplaced c t) (s.landingZoneFault c t) := by
  refine ZoneTable.find_finds fun y _ high => ?_
  unfold State.Misplaced
  cases (t.entry y).kind with
  | plain => simp
  | barred => simp
  | landing l => simp [← State.landingZoneHolds_iff high]

theorem State.conflictZone_finds : t.Finds (s.Clash c t) (conflictZone t (s.candidates c t)) :=
  ZoneTable.find_finds fun _ _ _ => State.conflictAt_iff

theorem State.tableFault_uncounted (bad : ¬(1 ≤ t.count ∧ t.count ≤ 48)) : s.tableFault c t = some 0 := by
  unfold State.tableFault ZoneTable.countFault
  rw [if_neg bad]
  rfl

theorem State.tableFault_counted (fits : 1 ≤ t.count ∧ t.count ≤ 48) :
    s.tableFault c t =
      firstFault t.boundaryFault (firstFault (t.lengthFault s.shaft.floor) (s.landingFault c t)) := by
  unfold State.tableFault ZoneTable.countFault
  rw [if_pos fits]
  rfl

theorem firstFault_none (y : Option Nat) : firstFault none y = y := rfl

end Checks

/-! ### The order -/

section Commit

variable {s : State} {b : Byte} {c : Compartment} (comp : b.toNat = c.code)

include comp

theorem State.zoneCommit_state (moving : s.supervised c = true ∧ s.allParked c = false) :
    s.zoneCommit b = s.refuse .state := by
  unfold State.zoneCommit
  rw [compartmentOf_eq_some comp]
  exact if_pos moving

variable (calm : ¬(s.supervised c = true ∧ s.allParked c = false))

include calm

theorem State.zoneCommit_table {d : Nat} (fault : s.tableFault c (s.comp c).shadow = some d) :
    s.zoneCommit b = s.refuseWith .table d := by
  unfold State.zoneCommit
  rw [compartmentOf_eq_some comp]
  dsimp only
  rw [if_neg calm, fault]

variable (valid : s.tableFault c (s.comp c).shadow = none)

include valid

theorem State.zoneCommit_conflict {z : Nat} (held : s.supervised c = true)
    (conflict : conflictZone (s.comp c).shadow (s.candidates c (s.comp c).shadow) = some z) :
    s.zoneCommit b = s.refuseWith .conflict z := by
  unfold State.zoneCommit
  rw [compartmentOf_eq_some comp]
  dsimp only
  rw [if_neg calm, valid]
  dsimp only
  rw [if_pos held, conflict]

theorem State.zoneCommit_under (held : s.supervised c = true)
    (clear : conflictZone (s.comp c).shadow (s.candidates c (s.comp c).shadow) = none) :
    s.zoneCommit b = ((s.commitShadow c).setRunsToSpans c).accept := by
  unfold State.zoneCommit
  rw [compartmentOf_eq_some comp]
  dsimp only
  rw [if_neg calm, valid]
  dsimp only
  rw [if_pos held, clear]

theorem State.zoneCommit_outside (out : ¬s.supervised c = true) : s.zoneCommit b = (s.commitShadow c).accept := by
  unfold State.zoneCommit
  rw [compartmentOf_eq_some comp]
  dsimp only
  rw [if_neg calm, valid]
  exact if_neg out

end Commit

/-! ### What it leaves -/

@[simp] theorem State.comp_mapHoists (s : State) (g : HoistId → Hoist → Hoist) (c : Compartment) :
    (s.mapHoists g).comp c = s.comp c := by cases c <;> rfl

theorem State.hoist_modComp (s : State) (c : Compartment) (f : CompartmentRec → CompartmentRec) (h : HoistId) :
    (s.modComp c f).hoist h = s.hoist h := s.hoist_setComp c _ h

theorem State.setRunsToSpans_received {s : State} {c : Compartment} (parked : s.allParked c = true) :
    (s.received .uplink).setRunsToSpans c = (s.setRunsToSpans c).received .uplink := by
  rw [State.setRunsToSpans_parked parked, State.setRunsToSpans_parked (s := s.received .uplink) parked]
  simp only [State.comp_received, State.hoist_received]
  rfl

theorem State.commitShadow_comp (s : State) (c : Compartment) :
    (s.commitShadow c).comp c = { s.comp c with committed := (s.comp c).shadow.commitOver (s.comp c).committed } :=
  s.modComp_comp_self c _

theorem State.commitShadow_hoist (s : State) (c : Compartment) (h : HoistId) :
    (s.commitShadow c).hoist h = s.hoist h := s.hoist_modComp c _ h

theorem State.commitShadow_allParked {s : State} {c : Compartment} (parked : s.allParked c = true) :
    (s.commitShadow c).allParked c = true := by
  rw [State.allParked_iff] at parked ⊢
  simpa only [State.commitShadow_hoist] using parked

/-- The hoists of the compartment stand on the zones that their spans overlap in the shadow, which is now committed. -/
theorem State.setRunsToSpans_commitShadow {s : State} {c : Compartment} (parked : s.allParked c = true)
    (fits : (s.comp c).shadow.count ≤ 48) :
    (s.commitShadow c).setRunsToSpans c = (s.commitShadow c).mapHoists fun h r =>
      if (s.hoist h).inCompartment c = true then r.placed (s.spanZones (s.comp c).shadow r) else r := by
  rw [State.setRunsToSpans_parked (State.commitShadow_allParked parked), State.commitShadow_comp]
  have shaft : ∀ t r, (s.commitShadow c).spanZones t r = s.spanZones t r := by
    intro t r
    unfold State.commitShadow State.modComp
    cases c <;> rfl
  simp only [State.commitShadow_hoist, shaft, State.spanZones_commitOver _ _ _ fits]

/-- What ZONE_COMMIT leaves of the compartments, the table's count within 48 (R11). -/
structure State.Commits (s : State) (c : Compartment) (t : State) : Prop where
  comp : t.comp c = { s.comp c with committed := (s.comp c).shadow.commitOver (s.comp c).committed }
  other : ∀ d, d ≠ c → t.comp d = s.comp d
  rest : t = { s with compA := t.compA, compB := t.compB, hoists := t.hoists }

theorem State.commitShadow_commits (s : State) (c : Compartment) : s.Commits c (s.commitShadow c) :=
  ⟨s.commitShadow_comp c, fun _ ne => s.modComp_comp_ne ne _, by unfold State.commitShadow; cases c <;> rfl⟩

theorem State.Commits.mapHoists {s t : State} {c : Compartment} (commits : s.Commits c t) (g : HoistId → Hoist → Hoist) :
    s.Commits c (t.mapHoists g) := by
  refine ⟨by rw [State.comp_mapHoists, commits.comp], fun d ne => by rw [State.comp_mapHoists, commits.other d ne], ?_⟩
  have rest := commits.rest
  unfold State.mapHoists
  dsimp only
  rw [rest]

theorem State.Commits.count {s t : State} {c : Compartment} (commits : s.Commits c t) :
    (t.comp c).committed.count = (s.comp c).shadow.count := by
  rw [commits.comp]
  exact ZoneTable.count_commitOver _ _

theorem State.Commits.entry {s t : State} {c : Compartment} (commits : s.Commits c t) {z : Nat} (low : 1 ≤ z)
    (high : z ≤ 48) : (t.comp c).committed.entry z =
      if z ≤ (s.comp c).shadow.count then (s.comp c).shadow.entry z else (s.comp c).committed.entry z := by
  rw [commits.comp]
  exact ZoneTable.entry_commitOver _ _ low high

theorem State.commitShadow_received (s : State) (c : Compartment) :
    (s.received .uplink).commitShadow c = (s.commitShadow c).received .uplink := s.modComp_received c _

/-- Whether a frame is in reception has no bearing on ZONE_COMMIT. -/
theorem State.zoneCommit_received (s : State) (b : Byte) :
    (s.received .uplink).zoneCommit b = ((s.zoneCommit b).1.received .uplink, (s.zoneCommit b).2) := by
  have held : ∀ c, (s.received .uplink).supervised c = s.supervised c := fun c => by
    unfold State.supervised
    rw [State.comp_received]
  have still : ∀ c, (s.received .uplink).allParked c = s.allParked c := fun _ => rfl
  have table : ∀ c t, (s.received .uplink).tableFault c t = s.tableFault c t := fun _ _ => rfl
  have runs : ∀ c t, (s.received .uplink).candidates c t = s.candidates c t := fun _ _ => rfl
  unfold State.zoneCommit
  simp only [State.comp_received, held, still, table, runs, State.commitShadow_received]
  split
  · rfl
  · split
    · rfl
    · rename_i c _ calm
      split
      · rfl
      · split
        · rename_i under
          have parked : (s.commitShadow c).allParked c = true :=
            State.commitShadow_allParked (by simpa [under] using calm)
          split
          · rfl
          · rw [State.setRunsToSpans_received parked]
            rfl
        · rfl

/-- Settles O35, by the checks of ZONE_COMMIT in their order and the two ways in which a valid shadow is taken. -/
theorem zoneCommitTakesShadow : Obligations.ZoneCommitTakesShadow := by
  intro o b c s takes comp x table floor parked inTable first sound counted disordered short misplaced uncovered zones clash
    refused
  have refusedBy : ∀ r d, s.zoneCommit b = s.refuseWith r d → refused r d := by
    intro r d e
    refine order_answered takes ((s.zoneCommit_received b).trans ?_)
    rw [e]
    rfl
  have under : s.supervised c = true ↔ x.state = .supervised := State.supervised_iff
  have still : s.allParked c = true ↔ parked := State.allParked_iff
  refine ⟨fun held moving => refusedBy _ _ ?_, fun calm => ?_⟩
  · exact State.zoneCommit_state comp ⟨under.2 held, Bool.eq_false_iff.2 fun y => moving (still.1 y)⟩
  have calm' : ¬(s.supervised c = true ∧ s.allParked c = false) := fun ⟨held, moving⟩ =>
    Bool.eq_false_iff.1 moving (still.2 (calm (under.1 held)))
  have wrong : ∀ d, s.tableFault c table = some d → refused .table d := fun d fault =>
    refusedBy _ _ (State.zoneCommit_table comp calm' fault)
  refine ⟨fun bad => wrong _ (State.tableFault_uncounted bad), fun fits => ?_⟩
  have check := State.tableFault_counted (s := s) (c := c) fits
  refine ⟨fun z bad => wrong _ ?_, fun ordered => ?_⟩
  · rw [check, ZoneTable.boundaryFault_finds.1 z bad]
    rfl
  rw [ZoneTable.boundaryFault_finds.2 ordered, firstFault_none] at check
  refine ⟨fun z bad => wrong _ ?_, fun long => ?_⟩
  · rw [check, ZoneTable.lengthFault_finds.1 z bad]
    rfl
  rw [ZoneTable.lengthFault_finds.2 long, firstFault_none] at check
  refine ⟨fun z bad => wrong _ ?_, fun placed => ⟨fun l bad before => wrong _ ?_, fun covered => ?_⟩⟩
  · rw [check, State.landingFault, State.landingZoneFault_finds.1 z bad]
    rfl
  · rw [check, State.landingFault, State.landingZoneFault_finds.2 placed, firstFault_none,
      State.coverageFault_first bad before]
  rw [State.landingFault, State.landingZoneFault_finds.2 placed, firstFault_none,
    State.coverageFault_none covered] at check
  refine ⟨fun z held bad => refusedBy _ _ ?_, fun clear => ?_⟩
  · exact State.zoneCommit_conflict comp calm' check (under.2 held) (State.conflictZone_finds.1 z bad)
  suffices taken : ∃ t, s.Commits c t ∧ s.zoneCommit b = t.accept ∧ (x.state ≠ .supervised → t.hoists = s.hoists) ∧
      (x.state = .supervised → ∀ h, t.hoist h =
        if (s.hoist h).inCompartment c = true then (s.hoist h).placed (zones h) else s.hoist h) by
    obtain ⟨t, commits, e, out, held⟩ := taken
    refine ⟨t, order_answered takes ((s.zoneCommit_received b).trans (by rw [e]; rfl)), commits.count,
      fun z low high => commits.entry low high, ?_, commits.other, out, fun y h => ?_, commits.rest⟩
    · rw [commits.comp]
    · rw [held y h]
      exact ⟨fun no => if_neg (by simp [no]), fun yes => if_pos yes⟩
  by_cases held : x.state = .supervised
  · have taken := State.zoneCommit_under comp calm' check (under.2 held) (State.conflictZone_finds.2 (clear held))
    rw [State.setRunsToSpans_commitShadow (still.2 (calm held)) fits.2] at taken
    refine ⟨_, (s.commitShadow_commits c).mapHoists _, taken, fun n => absurd held n, fun _ h => ?_⟩
    rw [State.hoist_mapHoists, State.commitShadow_hoist]
  · exact ⟨_, s.commitShadow_commits c, State.zoneCommit_outside comp calm' check fun y => held (under.1 y),
      fun _ => by unfold State.commitShadow; cases c <;> rfl, fun y => absurd y held⟩

end Sys2Proof.Machine
end

section
/-! ## The queries -/

namespace Sys2Proof.Machine

/-! ### Codes (R186) -/

theorem stateByte_eq (r : Hoist) : r.stateByte = byte r.state.code := by
  unfold Hoist.stateByte
  cases r.state <;> rfl

theorem carriedByte_eq (r : Hoist) : r.carriedByte = byte r.carried.code := by
  unfold Hoist.carriedByte
  cases r.carried <;> rfl

theorem massByte_eq (m : Option MassId) : massByte m = byte (massCode m) := by cases m <;> rfl

theorem bit8_eq (x : Bool) : bit8 x = [flagByte x] := rfl

theorem compartmentByte_eq (c : Compartment) : (if c = .a then 0 else 1 : Byte) = byte c.code := by cases c <;> rfl

theorem coded_freshness (x : Freshness) : coded [.none, .fresh, .lapsed] x = byte x.code := by cases x <;> rfl

theorem coded_driveMode (x : DriveMode) : coded [.park, .run, .invalid] x = byte x.code := by cases x <;> rfl

theorem coded_brake (x : Brake) : coded [.set, .lifted] x = byte x.code := by cases x <;> rfl

theorem coded_direction (x : Direction) : coded [.down, .up] x = byte x.code := by cases x <;> rfl

theorem coded_orderMode (x : OrderMode) : coded [.sequential, .interleaved] x = byte x.code := by cases x <;> rfl

theorem coded_shuttle (x : ShuttleState) :
    coded [.idle, .latched, .busy, .done, .fault, .unknown] x = byte x.code := by cases x <;> rfl

theorem coded_transferKind (x : TransferKind) : coded [.deposit, .collect] x = byte x.code := by cases x <;> rfl

theorem coded_phase (x : Phase) :
    coded [.waiting, .latching, .transferring, .unlatching, .stuck] x = byte x.code := by cases x <;> rfl

theorem tripCauseByte_eq (x : Option TripCause) :
    (x.elim 0 fun x => coded [.overtravel, .overspeed, .separation, .driveFault, .proofFail, .reportLoss, .parkFail, .stale]
      x + 1 : Byte) = byte (tripCauseCode x) := by
  cases x with
  | none => rfl
  | some x => cases x <;> rfl

theorem stopReasonByte_eq (x : Option StopReason) :
    (x.elim 0 fun x => coded [.stopped, .stale] x + 1 : Byte) = byte (stopReasonCode x) := by
  cases x with
  | none => rfl
  | some x => cases x <;> rfl

theorem outcomeByte_eq (x : Option HandoverOutcome) :
    (x.elim 0 fun x => coded [.done, .failed, .abandoned] x + 1 : Byte) = byte (outcomeCode x) := by
  cases x with
  | none => rfl
  | some x => cases x <;> rfl

theorem moveFlagsByte_eq (waited clamped degraded : Bool) :
    flagByte waited + 2 * flagByte clamped + 4 * flagByte degraded = byte (moveFlagsCode waited clamped degraded) := by
  cases waited <;> cases clamped <;> cases degraded <;> rfl

theorem servedByte_eq (r : LandingRec) : flagByte r.servesA + 2 * flagByte r.servesB = byte r.servedCode := by
  unfold LandingRec.servedCode
  cases r.servesA <;> cases r.servesB <;> rfl

/-- Four flags as the low bits of a byte, and those bits read back. -/
theorem fourFlags (a b c d : Bool) :
    flagByte a + 2 * flagByte b + 4 * flagByte c + 8 * flagByte d =
      byte ((if a = true then 1 else 0) + (if b = true then 2 else 0) + (if c = true then 4 else 0) +
        (if d = true then 8 else 0)) := by
  cases a <;> cases b <;> cases c <;> cases d <;> rfl

theorem groupsByte_eq (s : State) (h : HoistId) :
    flagByte ((s.group 0).getLsbD h.val) + 2 * flagByte ((s.group 1).getLsbD h.val) +
      4 * flagByte ((s.group 2).getLsbD h.val) + 8 * flagByte ((s.group 3).getLsbD h.val) = byte (s.groupsOf h) :=
  fourFlags ..

theorem fourFlags_bits : ∀ a b c d : Bool,
    let x := flagByte a + 2 * flagByte b + 4 * flagByte c + 8 * flagByte d
    x.toNat < 16 ∧ x.getLsbD 0 = a ∧ x.getLsbD 1 = b ∧ x.getLsbD 2 = c ∧ x.getLsbD 3 = d := by decide

theorem groupsByte_bits (s : State) (h : HoistId) :
    (byte (s.groupsOf h)).toNat < 16 ∧
      ∀ g : GroupId, (byte (s.groupsOf h)).getLsbD g.val = (s.group g).getLsbD h.val := by
  rw [← groupsByte_eq]
  obtain ⟨small, zero, one, two, three⟩ := fourFlags_bits ((s.group 0).getLsbD h.val) ((s.group 1).getLsbD h.val)
    ((s.group 2).getLsbD h.val) ((s.group 3).getLsbD h.val)
  refine ⟨small, fun g => ?_⟩
  match g with
  | 0 => exact zero
  | 1 => exact one
  | 2 => exact two
  | 3 => exact three

/-! ### The answer to HOIST_QUERY -/

theorem configData_some (k : HoistConfig) : configData (some k) =
    [byte k.compartment.code, byte k.rank, byte k.driveStation] ++ num16 k.tare ++ num16 k.height ++
      [byte k.sheaveOffset, byte k.ropeCoeff] ++ num16 k.stretchCap ++ num16 k.decel ++ num16 k.defaultCeiling ++
      [byte k.precedence] := by
  simp [configData, num8]

theorem latestData_eq (x : Option Latest) : latestData x = x.elim ([0, 0, 0, 0] : List Byte) fun l =>
    [coded [.park, .run, .invalid] l.mode, coded [.set, .lifted] l.brake] ++ int16 l.speed := by
  cases x with
  | none => rfl
  | some l => simp only [latestData, Option.elim, coded_driveMode, coded_brake, num8, List.cons_append, List.nil_append]

theorem moveData_eq (x : Option Move) : moveData x = x.elim (List.replicate 17 (0 : Byte)) fun m =>
    [if m.isOpen = true then 1 else 2] ++ num32 m.target ++ [coded [.down, .up] m.direction, flagByte m.parkOnArrival] ++
      num32 m.startDepth ++ num32 m.startTime ++
      [flagByte m.waited + 2 * flagByte m.clamped + 4 * flagByte m.degraded,
        m.stopReason.elim 0 fun x => coded [.stopped, .stale] x + 1] := by
  cases x with
  | none => rfl
  | some m =>
    have opened : byte (if m.isOpen = true then 1 else 2) = if m.isOpen = true then 1 else 2 := by
      cases m.isOpen <;> rfl
    simp only [moveData, Option.elim_some, coded_direction, moveFlagsByte_eq, stopReasonByte_eq, bit8_eq, num8, opened,
      List.append_assoc, List.cons_append, List.nil_append]

theorem runData_eq (x : Option Run) :
    runData x = [byte (x.elim 0 fun r => r.top), byte (x.elim 0 fun r => r.bottom)] := by cases x <;> rfl

/-- What is read off the latest REPORT, 0 with none. -/
theorem Hoist.depth_eq (r : Hoist) : r.depth = r.latest.elim 0 fun l => l.depth := by
  unfold Hoist.depth; cases r.latest <;> rfl

theorem Hoist.stretch_eq (r : Hoist) : r.stretch = r.latest.elim 0 fun l => l.stretch := by
  unfold Hoist.stretch; cases r.latest <;> rfl

theorem Hoist.spanTop_eq (r : Hoist) : r.spanTop = r.latest.elim 0 fun l => l.spanTop := by
  unfold Hoist.spanTop; cases r.latest <;> rfl

theorem Hoist.awaited_eq (r : Hoist) : r.awaited.getD 0 = r.extent.headD 0 := by
  unfold Hoist.awaited; cases r.extent <;> rfl

theorem State.hoistData_configured (s : State) {h : HoistId} {k : HoistConfig} (e : (s.hoist h).config = some k) :
    s.hoistData h = s.hoistBytes h k := by
  have configured : (s.hoist h).configured = true := by unfold Hoist.configured; rw [e]; rfl
  unfold State.hoistData State.hoistBytes
  dsimp only
  rw [if_pos configured, e, configData_some, latestData_eq, moveData_eq, runData_eq, Hoist.depth_eq, Hoist.stretch_eq,
    Hoist.spanTop_eq, Hoist.awaited_eq, groupsByte_eq, stateByte_eq, carriedByte_eq, tripCauseByte_eq, coded_freshness,
    compartmentByte_eq, bit8_eq]
  simp only [num8, List.append_assoc, List.cons_append, List.nil_append]
  rfl

theorem State.hoistData_unconfigured (s : State) {h : HoistId} (e : (s.hoist h).config = none) :
    s.hoistData h = List.replicate 17 0 ++ [(s.hoist h).stateByte, 0, (s.hoist h).carriedByte] ++ List.replicate 38 0 ++
      [byte (s.groupsOf h), 0, 0, 0] := by
  have bare : ¬(s.hoist h).configured = true := by unfold Hoist.configured; rw [e]; exact Bool.false_ne_true
  unfold State.hoistData
  dsimp only
  rw [if_neg bare, stateByte_eq, carriedByte_eq]
  rfl

/-! ### The answer to LANDING_QUERY -/

theorem handoverData_eq (now : Nat) (l : LandingId) (v : Handover) : handoverData now l v =
    [byte (v.hoist.val + 1), byte (l.val + 1), coded [.deposit, .collect] v.kind, byte (v.slot.getD 255),
        massByte v.mass, coded [.waiting, .latching, .transferring, .unlatching, .stuck] v.phase] ++
      (v.timer.elim ([0, 0, 0, 0, 0] : List Byte) fun e => [1] ++ num32 (e - now)) ++
      [v.outcome.elim 0 fun y => coded [.done, .failed, .abandoned] y + 1, flagByte v.settled, flagByte v.waited] := by
  have timer : timerData now v.timer = v.timer.elim ([0, 0, 0, 0, 0] : List Byte) fun e => [1] ++ num32 (e - now) := by
    cases v.timer <;> rfl
  have slot : slotCode v.slot = v.slot.getD 255 := by cases v.slot <;> rfl
  simp only [handoverData, timer, slot, coded_transferKind, coded_phase, massByte_eq, outcomeByte_eq, bit8_eq, num8,
    List.append_assoc, List.cons_append, List.nil_append]

theorem State.landingData_defined (s : State) {l : LandingId} {rec : LandingRec} (e : (s.landing l).record = some rec) :
    s.landingData l = s.landingBytes l rec := by
  unfold State.landingData State.landingBytes
  dsimp only
  rw [e]
  dsimp only
  rw [funext (handoverData_eq s.now l)]
  simp only [coded_orderMode, coded_shuttle, servedByte_eq, bit8_eq, num8, List.append_assoc,
    List.cons_append, List.nil_append]
  congr! 10 with st
  · cases st with
    | unverified e => cases e <;> rfl
    | blocked e => cases e <;> rfl
    | _ => rfl
  · cases (s.landing l).holder <;> rfl

theorem State.landingData_undefined (s : State) {l : LandingId} (e : (s.landing l).record = none) :
    s.landingData l = [0] := by
  unfold State.landingData
  dsimp only
  rw [e]
  rfl

/-! ### The answer to MASS_QUERY -/

theorem State.handoverOf_eq_none (s : State) {m : MassId} (free : ∀ l, ∀ v ∈ (s.landing l).queue, v.mass ≠ some m) :
    s.handoverOf m = none := by
  unfold State.handoverOf
  refine List.findSome?_eq_none_iff.2 fun l _ => ?_
  have : ((s.landing l).queue.find? fun v => v.mass == some m) = none :=
    List.find?_eq_none.2 fun v i => by simpa using free l v i
  rw [this]

theorem State.handoverOf_eq_some (s : State) {m : MassId} {l : LandingId} {v : Handover} (inside : v ∈ (s.landing l).queue)
    (mass : v.mass = some m) (only : ∀ y, ∀ u ∈ (s.landing y).queue, u.mass = some m → y = l ∧ u = v) :
    s.handoverOf m = some (l, v) := by
  have finds : ∀ y u, ((s.landing y).queue.find? fun v => v.mass == some m) = some u → y = l ∧ u = v := fun y u e =>
    only y u (List.mem_of_find?_eq_some e) (by simpa using List.find?_some e)
  cases found : s.handoverOf m with
  | none =>
    have := List.findSome?_eq_none_iff.1 found l (mem_allLandings l)
    split at this
    · cases this
    · rename_i e
      exact absurd mass (by simpa using List.find?_eq_none.1 e v inside)
  | some x =>
    obtain ⟨y, -, e⟩ := List.exists_of_findSome?_eq_some found
    split at e
    · rename_i u at_y
      obtain ⟨rfl, rfl⟩ := finds y u at_y
      exact e.symm
    · cases e

theorem State.massData_eq (s : State) (m : MassId) : s.massData m = s.massBytes m (s.handoverOf m) := by
  have measured : measuredData (s.mass m).measured =
      [flagByte (s.mass m).measured.isSome] ++ num32 ((s.mass m).measured.getD 0) := by
    cases (s.mass m).measured <;> rfl
  have handover : ∀ x, massHandoverData x = x.elim ([0, 0, 0] : List Byte) fun v =>
      [byte (v.2.hoist.val + 1), byte (v.1.val + 1), coded [.waiting, .latching, .transferring, .unlatching, .stuck] v.2.phase] := by
    intro x
    cases x with
    | none => rfl
    | some v => rw [Option.elim_some, coded_phase]; rfl
  unfold State.massData State.massBytes
  dsimp only
  rw [measured, handover]
  simp only [List.append_assoc]
  congr! 1
  · cases (s.mass m).status <;> rfl
  · congr! 3
    cases (s.mass m).status with
    | absent => rfl
    | placed p => cases p <;> rfl
    | uncertain p =>
      cases p with
      | none => rfl
      | some p => cases p <;> rfl

/-! ### The answer to TALLY_QUERY -/

theorem Mass.weight_eq (m : Mass) : m.weight = (m.measured.orElse fun _ => m.nominal).getD 0 := by
  unfold Mass.weight
  cases m.measured with
  | some w => rfl
  | none => cases m.nominal <;> rfl

/-! Where a mass's place is, and for which compartment it counts. -/

theorem State.placeDepth_slot (s : State) (l : LandingId) (i : Nat) :
    s.placeDepth (.slot l i) = (s.landing l).record.map fun rec => rec.sill := by
  unfold State.placeDepth
  dsimp only
  cases (s.landing l).record <;> rfl

theorem State.placeDepth_hoist (s : State) (h : HoistId) :
    s.placeDepth (.hoist h) = (s.hoist h).latest.map fun x => x.depth := by
  unfold State.placeDepth
  dsimp only
  cases (s.hoist h).latest <;> rfl

theorem State.placeCompartment_slot (s : State) (l : LandingId) (i : Nat) :
    s.placeCompartment (.slot l i) = (s.landing l).record.map fun rec => rec.lowest := by
  unfold State.placeCompartment
  dsimp only
  cases (s.landing l).record <;> rfl

theorem State.placeCompartment_hoist (s : State) (h : HoistId) :
    s.placeCompartment (.hoist h) = (s.hoist h).config.map fun k => k.compartment := by
  unfold State.placeCompartment
  dsimp only
  cases (s.hoist h).config <;> rfl

/-- R156's formula, as the statements write it out. -/
theorem tallyFigure_fold (weight base depth : Nat) :
    weight * (base - depth) * 980665 / 100000000000 = tallyFigure weight base depth := rfl

section Figure

/-! The figure of a mass by depth is named `figure`, so that its large numerals are not computed with. -/

variable {s : State} {m : MassId} {figure : Nat → Nat} (named : tallyFigure (s.mass m).weight s.shaft.tallyBase = figure)

include named

theorem State.figureAt_eq (p : Place) : s.figureAt m p = (s.placeDepth p).elim 0 figure := by
  unfold State.figureAt
  rw [named]
  cases s.placeDepth p <;> rfl

theorem State.potential_slot (counts : Option Compartment → Bool) {l : LandingId} {i : Nat}
    (at_ : (s.mass m).status = .placed (.slot l i)) : s.potential counts m = (s.landing l).record.elim 0 fun rec =>
      if counts (some rec.lowest) = true then figure rec.sill else 0 := by
  unfold State.potential LandingRec.lowest
  simp only [at_, ← Mass.weight_eq, tallyFigure_fold, named]

theorem State.potential_hoist (counts : Option Compartment → Bool) {h : HoistId}
    (at_ : (s.mass m).status = .placed (.hoist h)) : s.potential counts m = (s.hoist h).latest.elim 0 fun x =>
      if counts ((s.hoist h).config.map fun k => k.compartment) = true then figure x.depth else 0 := by
  unfold State.potential
  simp only [at_, ← Mass.weight_eq, tallyFigure_fold, named]

end Figure

theorem State.tallyAll_eq (s : State) (m : MassId) : s.tallyAll m = s.potential (fun _ => true) m := by
  obtain ⟨figure, named⟩ : ∃ f, tallyFigure (s.mass m).weight s.shaft.tallyBase = f := ⟨_, rfl⟩
  unfold State.tallyAll
  cases at_ : (s.mass m).status with
  | absent => simp only [State.potential, at_]
  | uncertain p => simp only [State.potential, at_]
  | placed p =>
    dsimp only
    rw [State.figureAt_eq named]
    cases p with
    | slot l i =>
      rw [State.potential_slot named _ at_, State.placeDepth_slot]
      cases (s.landing l).record <;> rfl
    | hoist h =>
      rw [State.potential_hoist named _ at_, State.placeDepth_hoist]
      cases (s.hoist h).latest <;> rfl

theorem State.tallyOf_eq (s : State) (c : Compartment) (m : MassId) :
    s.tallyOf c m = s.potential (· == some c) m := by
  obtain ⟨figure, named⟩ : ∃ f, tallyFigure (s.mass m).weight s.shaft.tallyBase = f := ⟨_, rfl⟩
  unfold State.tallyOf
  cases at_ : (s.mass m).status with
  | absent => simp only [State.potential, at_]
  | uncertain p => simp only [State.potential, at_]
  | placed p =>
    dsimp only
    rw [State.figureAt_eq named]
    cases p with
    | slot l i =>
      rw [State.potential_slot named _ at_, State.placeDepth_slot, State.placeCompartment_slot]
      cases (s.landing l).record <;> simp
    | hoist h =>
      rw [State.potential_hoist named _ at_, State.placeDepth_hoist, State.placeCompartment_hoist]
      cases (s.hoist h).latest <;> simp

theorem State.tallyData_eq (s : State) : s.tallyData = s.tallyBytes := by
  unfold State.tallyData State.tallyBytes State.countStatus allMasses
  rw [funext s.tallyAll_eq, funext (s.tallyOf_eq .a), funext (s.tallyOf_eq .b)]
  simp only [num8, List.append_assoc, List.cons_append, List.nil_append]
  congr! 9 with m m
  · cases (s.mass m).status <;> rfl
  · cases (s.mass m).status <;> rfl

/-! ### The five queries -/

theorem State.zoneQuery_target (s : State) {b : Byte} (x : Byte) (y : Nat) (e : 1 < b.toNat) :
    s.zoneQuery b x y = s.refuse .target := by
  unfold State.zoneQuery
  rw [compartmentOf_eq_none e]

section ZoneQuery

variable (s : State) {b x : Byte} {c : Compartment} {y : Nat} (comp : b.toNat = c.code)

include comp

theorem State.zoneQuery_range (bad : 1 < x.toNat ∨ 48 < y) : s.zoneQuery b x y = s.refuse .range := by
  unfold State.zoneQuery
  rw [compartmentOf_eq_some comp]
  exact if_pos bad

theorem State.zoneQuery_counts (fits : x.toNat ≤ 1) : s.zoneQuery b x 0 = s.acceptData (s.zoneCounts c) := by
  unfold State.zoneQuery
  rw [compartmentOf_eq_some comp]
  dsimp only
  rw [if_neg (by omega), if_pos rfl]

variable (low : 1 ≤ y) (high : y ≤ 48)

include low high

theorem State.zoneQuery_shadow :
    s.zoneQuery b 1 y = s.acceptData (shadowEntryData ((s.comp c).shadow.entry y)) := by
  unfold State.zoneQuery
  rw [compartmentOf_eq_some comp]
  dsimp only
  rw [if_neg (by simp; omega), if_neg (by omega), if_pos rfl]

theorem State.zoneQuery_committed : s.zoneQuery b 0 y =
    if (s.comp c).committed.count < y then s.refuse .target else s.acceptData (s.committedEntryData c y) := by
  unfold State.zoneQuery
  rw [compartmentOf_eq_some comp]
  dsimp only
  rw [if_neg (by simp; omega), if_neg (by omega), if_neg (by decide)]

end ZoneQuery

theorem State.committedEntryData_eq (s : State) (c : Compartment) (z : Nat) :
    s.committedEntryData c z = num32 ((s.comp c).committed.entry z).upper ++
      num32 ((s.comp c).committed.lower s.shaft.floor z) ++ num16 ((s.comp c).committed.entry z).ceiling ++
      [byte ((s.comp c).committed.entry z).kind.code, byte ((s.comp c).committed.entry z).kind.landingCode,
        byte (s.holderCode c z)] := by
  simp only [State.committedEntryData, num8, List.append_assoc, List.cons_append, List.nil_append]

theorem State.holderByte_eq (s : State) (c : Compartment) (z : Nat) :
    byte (s.holderCode c z) = (s.holder c z).elim 0 fun h => byte (h.val + 1) := by
  unfold State.holderCode
  cases s.holder c z <;> rfl

theorem State.hoistQuery_target (s : State) {b : Byte} (e : b.toNat = 0 ∨ 6 < b.toNat) :
    s.hoistQuery b = s.refuse .target := by
  unfold State.hoistQuery
  rw [show hoistOf b = none from numbered_eq_none e]

theorem State.landingQuery_target (s : State) {b : Byte} (e : b.toNat = 0 ∨ 16 < b.toNat) :
    s.landingQuery b = s.refuse .target := by
  unfold State.landingQuery
  rw [show landingOf b = none from numbered_eq_none e]

theorem State.massQuery_target (s : State) {b : Byte} (e : b.toNat = 0 ∨ 96 < b.toNat) :
    s.massQuery b = s.refuse .target := by
  unfold State.massQuery
  rw [show massOf b = none from numbered_eq_none e]

theorem State.hoistQuery_of (s : State) {b : Byte} {h : HoistId} (at_ : b.toNat = h.val + 1) :
    s.hoistQuery b = s.acceptData (s.hoistData h) := by
  unfold State.hoistQuery
  rw [show hoistOf b = some h from numbered_eq_some at_]

theorem State.landingQuery_of (s : State) {b : Byte} {l : LandingId} (at_ : b.toNat = l.val + 1) :
    s.landingQuery b = s.acceptData (s.landingData l) := by
  unfold State.landingQuery
  rw [show landingOf b = some l from numbered_eq_some at_]

theorem State.massQuery_of (s : State) {b : Byte} {m : MassId} (at_ : b.toNat = m.val + 1) :
    s.massQuery b = s.acceptData (s.massBytes m (s.handoverOf m)) := by
  unfold State.massQuery
  rw [show massOf b = some m from numbered_eq_some at_, ← State.massData_eq]

/-- A query's data does not depend on whether a frame is in reception. -/
theorem query_answered {s : State} {o : OrderHead} {code : Byte} {body : State → State × Reply} {data : List Byte}
    (e : s.Takes o) (does : body (s.received .uplink) = (s.received .uplink).acceptData data) :
    order s o code body = .next (s.answered o code .accepted 0 data) := order_answered e does

/-- Settles O54, by the five queries and the branches of each. -/
theorem queriesOnlyAnswer : Obligations.QueriesOnlyAnswer := by
  intro o b x y s takes gives refuses
  refine ⟨fun e => order_answered takes (State.zoneQuery_target _ _ _ e), fun c comp => ?_, fun e => ?_, fun h at_ => ?_,
    fun e => ?_, fun l at_ => ?_, fun e => ?_, fun m at_ => ?_, ?_⟩
  · refine ⟨fun bad => order_answered takes (State.zoneQuery_range _ comp bad), fun fits zero => ?_,
      fun shadow low high => ?_, fun committed beyond high => ?_, fun committed low high within => ?_⟩
    · subst zero
      refine query_answered takes ((State.zoneQuery_counts _ comp fits).trans ?_)
      rw [State.zoneCounts, State.comp_received]
      rfl
    · subst shadow
      refine query_answered takes ((State.zoneQuery_shadow _ comp low high).trans ?_)
      rw [State.comp_received, shadowEntryData]
      simp only [num8, List.append_assoc, List.cons_append, List.nil_append]
    · subst committed
      refine order_answered takes ((State.zoneQuery_committed _ comp (by omega) high).trans ?_)
      rw [State.comp_received, if_pos beyond]
      rfl
    · subst committed
      refine query_answered takes ((State.zoneQuery_committed _ comp low high).trans ?_)
      rw [State.committedEntryData_eq, State.comp_received, if_neg (by omega), State.holderByte_eq]
      change State.acceptData _ (_ ++ [_, _, (s.holder c y.toNat).elim 0 fun h => byte (h.val + 1)]) = _
      cases s.holder c y.toNat <;> rfl
  · exact order_answered takes (State.hoistQuery_target _ e)
  · refine ⟨fun k e => ?_, fun e => ⟨byte (s.groupsOf h), ?_, groupsByte_bits s h⟩⟩
    · exact query_answered takes ((State.hoistQuery_of _ at_).trans (congrArg _ (State.hoistData_configured s e)))
    · exact query_answered takes ((State.hoistQuery_of _ at_).trans (congrArg _ (State.hoistData_unconfigured s e)))
  · exact order_answered takes (State.landingQuery_target _ e)
  · refine ⟨fun e => ?_, fun rec e => ?_⟩
    · exact query_answered takes ((State.landingQuery_of _ at_).trans (congrArg _ (State.landingData_undefined s e)))
    · exact query_answered takes ((State.landingQuery_of _ at_).trans (congrArg _ (State.landingData_defined s e)))
  · exact order_answered takes (State.massQuery_target _ e)
  · refine ⟨fun free => ?_, fun l v inside mass only => ?_⟩
    · refine query_answered takes ((State.massQuery_of _ at_).trans ?_)
      exact congrArg (fun v => State.acceptData _ (s.massBytes m v)) (s.handoverOf_eq_none free)
    · refine query_answered takes ((State.massQuery_of _ at_).trans ?_)
      exact congrArg (fun v => State.acceptData _ (s.massBytes m v)) (s.handoverOf_eq_some inside mass only)
  · exact query_answered takes (congrArg _ s.tallyData_eq)

end Sys2Proof.Machine
end

section
/-! ## What a DEMAND asks of a drive -/

namespace Sys2Proof.Machine

/-- The frame is a DEMAND to a hoist of the state, within what the hoist's envelope, state and latest REPORT let through
(R39, R95). -/
def State.DemandWithin (t : State) (f : Frame) : Prop :=
  ∃ (h : HoistId) (mode : Byte) (v : Int),
    f = makeFrame (t.hoist h).station kindDemand (mode :: int16 v) ∧ -20000 ≤ v ∧ v ≤ 20000 ∧
    (0 < v → v ≤ (t.hoist h).envDown) ∧ (v < 0 → -v ≤ (t.hoist h).envUp) ∧
    (v ≠ 0 → (t.hoist h).state = .ready ∨ (t.hoist h).state = .moving) ∧
    (v ≠ 0 → ∃ l, (t.hoist h).latest = some l ∧ l.mode = .run ∧ l.brake = .lifted)

/-- The fields of a hoist that bound the DEMANDs sent down to it are as they were. -/
structure Hoist.SameLimits (r r' : Hoist) : Prop where
  config : r'.config = r.config
  latest : r'.latest = r.latest
  state : r'.state = r.state
  envDown : r'.envDown = r.envDown
  envUp : r'.envUp = r.envUp

theorem Hoist.SameLimits.trans {r r' r'' : Hoist} (a : r.SameLimits r') (b : r'.SameLimits r'') : r.SameLimits r'' :=
  ⟨b.config.trans a.config, b.latest.trans a.latest, b.state.trans a.state, b.envDown.trans a.envDown,
    b.envUp.trans a.envUp⟩

theorem Hoist.sameLimits_modMove (r : Hoist) (f : Move → Move) : r.SameLimits (r.modMove f) := by
  unfold Hoist.modMove; split <;> constructor <;> rfl

theorem HoistState.takesVelocity_iff {st : HoistState} : st.takesVelocity = true ↔ st = .ready ∨ st = .moving := by
  cases st <;> simp [HoistState.takesVelocity]

theorem Hoist.phaseMatch_iff {r : Hoist} :
    r.phaseMatch = true ↔ ∃ l, r.latest = some l ∧ l.mode = .run ∧ l.brake = .lifted := by
  unfold Hoist.phaseMatch
  cases r.latest <;> simp

/-- A demanded velocity is cut to the envelope in its direction and to 20,000 mm/s, and keeps its sign (R94, R95). -/
theorem clampTo_saturate_within (down up : Nat) (v : Int) :
    let w := clampTo down up (saturate v)
    w ≤ 20000 ∧ -20000 ≤ w ∧ (0 < w → w ≤ down) ∧ (w < 0 → -w ≤ up) := by
  unfold clampTo saturate
  dsimp only
  split
  · omega
  · split <;> omega

/-- Where a velocity goes down the hoist takes one and its phases match; elsewhere 0 goes down (R38, R39). -/
theorem Hoist.forwardedVelocity_zero {r : Hoist} (v : Int) (held : ¬(r.state.takesVelocity = true ∧ r.phaseMatch = true)) :
    r.forwardedVelocity v = 0 := if_neg held

theorem Hoist.forwardedVelocity_clamped {r : Hoist} (v : Int) (free : r.state.takesVelocity = true)
    (fits : r.phaseMatch = true) : r.forwardedVelocity v = clampTo r.envDown r.envUp (saturate v) :=
  if_pos ⟨free, fits⟩

theorem State.superviseDemand_outbox (s : State) (h : HoistId) (v : Int) :
    (s.superviseDemand h v).outbox = s.outbox ++ [(.field, makeFrame (s.hoist h).station kindDemand
      (byte (s.hoist h).state.forwardedMode.code :: int16 ((s.hoist h).forwardedVelocity v)))] := by
  unfold State.superviseDemand
  dsimp only
  split <;> split <;> rfl

theorem State.superviseDemand_limits (s : State) (h : HoistId) (v : Int) :
    (s.hoist h).SameLimits ((s.superviseDemand h v).hoist h) := by
  unfold State.superviseDemand
  dsimp only
  rw [State.hoist_give]
  split
  · rw [State.hoist_latch, State.modHoist_hoist_self]
    refine .trans ?_ (Hoist.sameLimits_modMove _ _)
    split <;> simp only [State.hoist_latch, State.modHoist_hoist_self] <;> constructor <;> rfl
  · split <;> simp only [State.hoist_latch, State.modHoist_hoist_self] <;> constructor <;> rfl

theorem State.restartDemandTimer_limits (s : State) (h : HoistId) :
    (s.hoist h).SameLimits ((s.restartDemandTimer h).hoist h) := by
  unfold State.restartDemandTimer
  rw [State.modHoist_hoist_self]
  constructor <;> rfl

/-- A DEMAND of a hoist keeps within the limits that the hoist still has when it has been sent down. -/
theorem State.DemandWithin.of_limits {t : State} {h : HoistId} {r : Hoist} (same : r.SameLimits (t.hoist h)) (mode : Byte)
    (v : Int) : t.DemandWithin (makeFrame r.station kindDemand (mode :: int16 (r.forwardedVelocity v))) := by
  have station : (t.hoist h).station = r.station := by unfold Hoist.station; rw [same.config]
  refine ⟨h, mode, r.forwardedVelocity v, by rw [station], ?_⟩
  rw [same.envDown, same.envUp, same.state, same.latest, ← HoistState.takesVelocity_iff, ← Hoist.phaseMatch_iff]
  by_cases passes : r.state.takesVelocity = true ∧ r.phaseMatch = true
  · obtain ⟨free, fits⟩ := passes
    rw [Hoist.forwardedVelocity_clamped v free fits]
    obtain ⟨high, low, down, up⟩ := clampTo_saturate_within r.envDown r.envUp v
    exact ⟨low, high, down, up, fun _ => free, fun _ => fits⟩
  · rw [Hoist.forwardedVelocity_zero v passes]
    simp

/-- Supervising a demand gives one frame, a DEMAND within its hoist's limits. -/
theorem State.superviseDemand_within (s : State) (h : HoistId) (v : Int) {f : Frame}
    (sent : (Port.field, f) ∈ ((s.superviseDemand h v).restartDemandTimer h).outbox) :
    (Port.field, f) ∈ s.outbox ∨ ((s.superviseDemand h v).restartDemandTimer h).DemandWithin f := by
  rw [show ((s.superviseDemand h v).restartDemandTimer h).outbox = (s.superviseDemand h v).outbox from rfl,
    State.superviseDemand_outbox, List.mem_append, List.mem_singleton, Prod.mk.injEq] at sent
  rcases sent with old | ⟨-, rfl⟩
  · exact .inl old
  · exact .inr (.of_limits ((s.superviseDemand_limits h v).trans (State.restartDemandTimer_limits _ h)) _ v)

theorem execDemand_within (a m : Byte) (v : Half) {s t : State} {f : Frame} (does : execDemand a m v s = .next t)
    (sent : (Port.field, f) ∈ t.outbox) : (Port.field, f) ∈ s.outbox ∨ t.DemandWithin f := by
  unfold execDemand event at does
  cases does
  split at sent
  · exact .inl sent
  rename_i free
  rw [if_neg free]
  dsimp only at sent ⊢
  split at sent
  · exact .inl sent
  rename_i addressed
  rw [if_neg addressed]
  split at sent
  · exact State.superviseDemand_within (s.received .uplink) _ _ sent
  · exact .inl sent

theorem execDemandAgeExpiry_within (h : HoistId) {s t : State} {f : Frame} (does : execDemandAgeExpiry h s = .next t)
    (sent : (Port.field, f) ∈ t.outbox) : (Port.field, f) ∈ s.outbox ∨ t.DemandWithin f := by
  unfold execDemandAgeExpiry event expiry at does
  cases does
  split at sent
  · exact .inl sent
  rename_i free
  rw [if_neg free]
  dsimp only at sent ⊢
  split at sent
  · exact .inl sent
  rename_i first
  rw [if_neg first]
  split at sent
  · rename_i reached
    rw [if_pos reached]
    refine (State.superviseDemand_within _ h 0 sent).imp_left fun old => ?_
    have same : ((s.actOnStale h).latch .stale).outbox = s.outbox := by
      have only := (s.actOnStale_acts h).only
      unfold State.OnlyHoists at only
      rw [State.latch_outbox, only]
    rwa [same] at old
  · exact .inl sent

/-- A start leaves the frames given before, or none, and its own ANSWER on the uplink. -/
theorem exec_start_sent {i : Instr} {s t : State} {f : Frame} (start : Starts i) (does : exec i s = .next t)
    (sent : (Port.field, f) ∈ t.outbox) : (Port.field, f) ∈ s.outbox := by
  rcases start with ⟨x, rfl⟩ | rfl | ⟨x, rfl⟩ | ⟨o, x, rfl⟩
  · cases does
    exact nomatch sent
  · cases does
    exact nomatch sent
  · unfold exec execResetInputRelease at does
    cases does
    split at sent
    · exact nomatch sent
    · exact sent
  · unfold exec execRestart event at does
    cases does
    split at sent
    · exact sent
    · dsimp only at sent
      split at sent
      · change (Port.field, f) ∈ s.outbox ++ [(Port.uplink, _)] at sent
        simpa using sent
      · unfold State.dropOrder at sent
        split at sent <;> exact sent

/-- Settles O16: a DEMAND reaches the field port only where a DEMAND is supervised, and there it is within the limits of its
hoist; every other command gives the field port no DEMAND. -/
theorem noDemandBeyondTheEnvelope : Obligations.NoDemandBeyondTheEnvelope := by
  intro i s t f does sent kind
  show _ ∨ t.DemandWithin f
  by_cases start : Starts i
  · exact .inl (exec_start_sent start does sent)
  by_cases demands : Demands i
  · rcases demands with ⟨a, m, v, rfl⟩ | ⟨h, rfl⟩
    · exact execDemand_within a m v does sent
    · exact execDemandAgeExpiry_within h does sent
  · obtain ⟨u, e, -, quiet⟩ := exec_works i s start
    obtain rfl : u = t := by rw [e] at does; exact Host.Outcome.next.inj does
    obtain ⟨new, grown, allowed⟩ := (quiet demands).gives
    rw [grown, List.mem_append] at sent
    exact .inl (sent.resolve_right fun m => allowed _ m rfl kind)

/-- Settles O15, by whether the hoist takes a velocity and its phases match. -/
theorem forwardedVelocityAndReason : Obligations.ForwardedVelocityAndReason := by
  intro r v x free fits
  have takes : r.state.takesVelocity = true ↔ free := HoistState.takesVelocity_iff
  have phase : r.phaseMatch = true ↔ fits := Hoist.phaseMatch_iff
  have saturated : saturate v = x := rfl
  have reason : r.clampReason v =
      if x = 0 then .none
      else if ¬free then .state
      else if ¬fits then .mismatch
      else if r.forwardedVelocity v ≠ x then .envelope
      else if x ≠ v then .saturated
      else .none := by
    unfold Hoist.clampReason
    simp only [saturated, ← takes, ← phase, Bool.not_eq_true]
  refine ⟨fun a b => ?_, fun held => Hoist.forwardedVelocity_zero v (by rwa [takes, phase]), fun zero => ?_,
    fun some held => ?_, fun some a b => ?_, fun some a b cut => ?_, fun some a b whole far => ?_,
    fun some a b whole near => ?_⟩
  · rw [Hoist.forwardedVelocity_clamped v (takes.2 a) (phase.2 b), saturated]
    unfold clampTo
    refine ⟨fun down => if_pos down, fun up => ?_, fun rest => ?_⟩
    · rw [if_neg (by omega), if_pos up]
    · rw [if_neg (by omega), if_neg (by omega)]
  · rw [reason, if_pos zero]
  · rw [reason, if_neg some, if_pos held]
  · rw [reason, if_neg some, if_neg (not_not_intro a), if_pos b]
  · rw [reason, if_neg some, if_neg (not_not_intro a), if_neg (not_not_intro b), if_pos cut]
  · rw [reason, if_neg some, if_neg (not_not_intro a), if_neg (not_not_intro b), if_neg (not_not_intro whole), if_pos far]
  · rw [reason, if_neg some, if_neg (not_not_intro a), if_neg (not_not_intro b), if_neg (not_not_intro whole),
      if_neg (not_not_intro near)]

end Sys2Proof.Machine
end

section
/-! ## Runs, extents and walks -/

namespace Sys2Proof.Machine

/-! ### Runs by their zones -/

theorem inRun_some {r : Run} {z : Nat} : inRun (some r) z = true ↔ r.top ≤ z ∧ z ≤ r.bottom := by
  simp [inRun, Run.holds]

theorem inRun_none (z : Nat) : inRun none z = false := rfl

/-- A run that is not empty is a block of zones numbered from 1 (R62). -/
def Block : Option Run → Prop
  | some r => 1 ≤ r.top ∧ r.top ≤ r.bottom
  | none => True

/-- A run has a zone when it is not empty. -/
theorem Block.some_zone {r : Run} (b : Block (some r)) : inRun (some r) r.top = true :=
  inRun_some.2 ⟨le_rfl, b.2⟩

/-- Zones between two zones of a run are in it. -/
theorem inRun_between {run : Option Run} {x y z : Nat} (low : inRun run x = true) (high : inRun run z = true)
    (xy : x ≤ y) (yz : y ≤ z) : inRun run y = true := by
  cases run with
  | none => cases low
  | some r =>
    rw [inRun_some] at *
    omega

theorem apart_iff {a b : Option Run} (ba : Block a) (bb : Block b) :
    apart a b ↔ ∀ z, inRun a z = true → inRun b z = false := by
  cases a with
  | none => simp [apart, inRun_none]
  | some a =>
    cases b with
    | none => simp [apart, inRun_none]
    | some b =>
      simp only [apart, ← Bool.not_eq_true, inRun_some]
      unfold Block at ba bb
      exact ⟨fun x z m => by omega, fun x => by have := x (max a.top b.top); omega⟩

theorem above_iff {a b : Option Run} (ba : Block a) (bb : Block b) :
    above a b ↔ ∀ y z, inRun a y = true → inRun b z = true → y < z := by
  cases a with
  | none => simp [above, inRun_none]
  | some a =>
    cases b with
    | none => simp [above, inRun_none]
    | some b =>
      simp only [above, inRun_some]
      unfold Block at ba bb
      exact ⟨fun x y z m n => by omega, fun x => x _ _ ⟨ba.2, le_rfl⟩ ⟨le_rfl, bb.2⟩⟩

/-! ### Zones of a depth and of a span -/

theorem ZoneTable.zoneAt_range {t : ZoneTable} {floor x z : Nat} (e : t.zoneAt floor x = some z) :
    1 ≤ z ∧ z ≤ t.count := ZoneTable.mem_zones.1 (List.mem_of_find?_eq_some e)

/-- The zones of a span are a block of zones of the table. -/
theorem ZoneTable.overlap_range {t : ZoneTable} {floor a b : Nat} {run : Run} (e : t.overlap floor a b = some run) :
    1 ≤ run.top ∧ run.top ≤ run.bottom ∧ run.bottom ≤ t.count := by
  unfold ZoneTable.overlap at e
  split at e
  · rename_i top bottom eq_top eq_bottom
    split at e
    · cases e
      exact ⟨(ZoneTable.zoneAt_range eq_top).1, ‹_›, (ZoneTable.zoneAt_range eq_bottom).2⟩
    · cases e
  · cases e

theorem State.spanZones_range {s : State} {t : ZoneTable} {r : Hoist} {run : Run} (e : s.spanZones t r = some run) :
    1 ≤ run.top ∧ run.top ≤ run.bottom ∧ run.bottom ≤ t.count := by
  unfold State.spanZones at e
  split at e
  · exact ZoneTable.overlap_range e
  · cases e

theorem State.spanZones_block (s : State) (t : ZoneTable) (r : Hoist) : Block (s.spanZones t r) := by
  cases e : s.spanZones t r with
  | none => trivial
  | some run => exact ⟨(State.spanZones_range e).1, (State.spanZones_range e).2.1⟩

theorem mem_runZones {run : Option Run} {z : Nat} : z ∈ runZones run ↔ inRun run z = true := by
  cases run with
  | none => simp [runZones, inRun_none]
  | some r =>
    rw [inRun_some]
    unfold runZones Run.zones
    rw [List.mem_range'_1]
    omega

/-! ### Extents that carry a run on -/

/-- The zones carry the run on, one by one, in a direction (R64). -/
def Follows : Run → Direction → List Nat → Prop
  | _, _, [] => True
  | run, .down, z :: zs => z = run.bottom + 1 ∧ Follows { run with bottom := z } .down zs
  | run, .up, z :: zs => z + 1 = run.top ∧ Follows { run with top := z } .up zs

theorem follows_down {run : Run} {zs : List Nat} :
    Follows run .down zs ↔ zs = List.range' (run.bottom + 1) zs.length := by
  induction zs generalizing run with
  | nil => simp [Follows]
  | cons z zs ih =>
    rw [Follows, ih, List.length_cons, List.range'_succ, List.cons.injEq]
    exact and_congr_right fun e => by rw [e]

theorem follows_up {run : Run} {zs : List Nat} :
    Follows run .up zs ↔ zs.length ≤ run.top ∧ zs = (List.range' (run.top - zs.length) zs.length).reverse := by
  induction zs generalizing run with
  | nil => simp [Follows]
  | cons z zs ih =>
    rw [Follows, ih, List.length_cons, List.range'_1_concat, List.reverse_append, List.reverse_singleton,
      List.singleton_append, List.cons.injEq]
    dsimp only
    constructor
    · rintro ⟨next, fits, rest⟩
      have : run.top - (zs.length + 1) = z - zs.length := by omega
      exact ⟨by omega, by omega, by rw [this]; exact rest⟩
    · rintro ⟨fits, next, rest⟩
      have : z - zs.length = run.top - (zs.length + 1) := by omega
      exact ⟨by omega, by omega, by rw [this]; exact rest⟩

theorem Follows.of_prefix {run : Run} {d : Direction} {ys zs : List Nat} (f : Follows run d zs) (front : ys <+: zs) :
    Follows run d ys := by
  induction ys generalizing run zs with
  | nil => trivial
  | cons y ys ih =>
    obtain ⟨rest, rfl⟩ := front
    cases d <;> exact ⟨f.1, ih f.2 ⟨rest, rfl⟩⟩

/-- The zones beyond a run towards a far zone carry it on (R64). -/
theorem beyondZones_follows (run : Run) {far : Nat} (d : Direction) : Follows run d (beyondZones run far d) := by
  cases d with
  | down =>
    rw [follows_down]
    simp [beyondZones]
  | up =>
    rw [follows_up]
    simp only [beyondZones, List.length_reverse, List.length_range']
    refine ⟨Nat.sub_le _ _, ?_⟩
    by_cases beyond : far ≤ run.top
    · rw [Nat.sub_sub_self beyond]
    · rw [show run.top - far = 0 by omega]
      rfl

/-- What R62 and R64 ask of a run and its pending extent. -/
def ExtentFits (run : Option Run) (d : Direction) (zs : List Nat) : Prop :=
  match run with
  | some r => Block run ∧ Follows r d zs ∧ (d = .up → zs.length < r.top)
  | none => zs = []

theorem ExtentFits.block {run : Option Run} {d : Direction} {zs : List Nat} (f : ExtentFits run d zs) : Block run := by
  cases run with
  | none => trivial
  | some r => exact f.1

theorem extentFits_nil {run : Option Run} {d : Direction} : ExtentFits run d [] ↔ Block run := by
  cases run with
  | none => simp [ExtentFits, Block]
  | some r =>
    refine ⟨fun f => f.1, fun b => ⟨b, trivial, fun _ => ?_⟩⟩
    exact b.1

theorem Hoist.extentOk_iff {r : Hoist} : r.ExtentOk ↔ ExtentFits r.run r.moveDirection r.extent := by
  unfold Hoist.ExtentOk ExtentFits Block
  cases r.run with
  | none => exact Iff.rfl
  | some run =>
    cases r.moveDirection with
    | down => simp only [follows_down, reduceCtorEq, false_implies, and_true, and_assoc]
    | up =>
      simp only [follows_up, forall_true_left]
      exact ⟨fun ⟨a, b, c, e⟩ => ⟨⟨a, b⟩, ⟨c.le, e⟩, c⟩, fun ⟨⟨a, b⟩, ⟨_, e⟩, c⟩ => ⟨a, b, c, e⟩⟩

/-- One zone of the extent taken (R66): the extent that is left carries on the run that has it. -/
theorem ExtentFits.grow {run : Option Run} {d : Direction} {z : Nat} {zs : List Nat} (f : ExtentFits run d (z :: zs)) :
    ExtentFits (growRun run d z) d zs := by
  cases run with
  | none => cases f
  | some r =>
    obtain ⟨⟨low, high⟩, follows, fits⟩ := f
    cases d with
    | down => exact ⟨⟨low, show r.top ≤ z by rw [follows.1]; omega⟩, follows.2, nofun⟩
    | up =>
      have next := follows.1
      have room := fits rfl
      rw [List.length_cons] at room
      exact ⟨⟨show 1 ≤ z by omega, show z ≤ r.bottom by omega⟩, follows.2, fun _ => show zs.length < z by omega⟩

theorem Follows.inRun_grow {r : Run} {d : Direction} {z : Nat} {zs : List Nat} (f : Follows r d (z :: zs)) {y : Nat} :
    inRun (some r) y = true → inRun (growRun (some r) d z) y = true := by
  cases d with
  | down =>
    have next := f.1
    simp only [growRun, inRun_some]
    omega
  | up =>
    have next := f.1
    simp only [growRun, inRun_some]
    omega

theorem ExtentFits.inRun_grow {run : Option Run} {d : Direction} {z : Nat} {zs : List Nat}
    (f : ExtentFits run d (z :: zs)) {y : Nat} :
    inRun (growRun run d z) y = true ↔ inRun run y = true ∨ y = z := by
  cases run with
  | none => cases f
  | some r =>
    obtain ⟨⟨low, high⟩, follows, fits⟩ := f
    cases d with
    | down =>
      have next := follows.1
      simp only [growRun, inRun_some]
      omega
    | up =>
      have next := follows.1
      simp only [growRun, inRun_some]
      omega

theorem ExtentFits.head_beyond {run : Option Run} {d : Direction} {z : Nat} {zs : List Nat}
    (f : ExtentFits run d (z :: zs)) : inRun run z = false := by
  cases run with
  | none => rfl
  | some r =>
    obtain ⟨-, follows, -⟩ := f
    rw [← Bool.not_eq_true, inRun_some]
    cases d with
    | down => have := follows.1; omega
    | up => have := follows.1; omega

/-- The extent formed for a target carries the run on (R64). -/
theorem State.extentFor_fits (s : State) (t : ZoneTable) {run : Option Run} (height target : Nat) (d : Direction)
    (b : Block run) : ExtentFits run d (s.extentFor t run height target d) := by
  unfold State.extentFor
  split
  · rename_i r far e
    have front := List.takeWhile_prefix (l := beyondZones r far d) fun z => !t.barred z
    refine ⟨b, (beyondZones_follows r d).of_prefix front, ?_⟩
    rintro rfl
    have short := front.length_le
    have first := (ZoneTable.zoneAt_range e).1
    have top := b.1
    simp only [beyondZones, List.length_reverse, List.length_range'] at short
    exact Nat.lt_of_le_of_lt short (by omega)
  · exact extentFits_nil.2 b

/-! ### Walks -/

/-- A walk takes the free zones at the front of the extent, and stops at the first that is held (R66). -/
theorem walkZones_eq (free : Nat → Bool) (d : Direction) (zs : List Nat) (run : Option Run) :
    walkZones free d zs run = ((zs.takeWhile free).foldl (fun run z => growRun run d z) run, zs.dropWhile free) := by
  induction zs generalizing run with
  | nil => rfl
  | cons z zs ih =>
    unfold walkZones
    by_cases e : free z = true
    · rw [if_pos e, ih, List.takeWhile_cons_of_pos e, List.dropWhile_cons_of_pos e, List.foldl_cons]
    · rw [if_neg e, List.takeWhile_cons_of_neg e, List.dropWhile_cons_of_neg e, List.foldl_nil]

/-- The walk stops at a zone that is not free (R65). -/
theorem walkZones_stops {free : Nat → Bool} {d : Direction} {zs : List Nat} {run : Option Run} {z : Nat}
    (e : (walkZones free d zs run).2.head? = some z) : free z = false := by
  rw [walkZones_eq] at e
  exact Bool.eq_false_iff.2 fun f => by
    have := List.head?_dropWhile_not free zs
    rw [e] at this
    simp [f] at this

section Walk

variable {free : Nat → Bool} {d : Direction} {zs : List Nat} {run : Option Run}

theorem walkZones_fits (f : ExtentFits run d zs) :
    ExtentFits (walkZones free d zs run).1 d (walkZones free d zs run).2 := by
  induction zs generalizing run with
  | nil => exact f
  | cons z zs ih =>
    unfold walkZones
    split
    · exact ih f.grow
    · exact f

/-- A walk keeps the zones of the run and takes free zones alone. -/
theorem walkZones_keeps (f : ExtentFits run d zs) {z : Nat} (m : inRun run z = true) :
    inRun (walkZones free d zs run).1 z = true := by
  induction zs generalizing run with
  | nil => exact m
  | cons y zs ih =>
    unfold walkZones
    split
    · exact ih f.grow (f.inRun_grow.2 (.inl m))
    · exact m

theorem walkZones_takes (f : ExtentFits run d zs) {z : Nat} (m : inRun (walkZones free d zs run).1 z = true) :
    inRun run z = true ∨ free z = true := by
  induction zs generalizing run with
  | nil => exact .inl m
  | cons y zs ih =>
    unfold walkZones at m
    split at m
    · rcases ih f.grow m with old | new
      · rcases f.inRun_grow.1 old with old | rfl
        · exact .inl old
        · exact .inr ‹_›
      · exact .inr new
    · exact .inl m

/-- A walk that finds the awaited zone free takes it. -/
theorem walkZones_first {z : Nat} (f : ExtentFits run d (z :: zs)) (e : free z = true) :
    inRun (walkZones free d (z :: zs) run).1 z = true := by
  unfold walkZones
  rw [if_pos e]
  exact walkZones_keeps f.grow (f.inRun_grow.2 (.inr rfl))

end Walk

end Sys2Proof.Machine
end

section
/-! ## What walks, offers and releases do to the hoists -/

namespace Sys2Proof.Machine

/-! ### Holders -/

theorem State.isFree_iff {s : State} {c : Compartment} {z : Nat} :
    s.isFree c z = true ↔ ∀ y, (s.hoist y).inCompartment c = true → inRun (s.hoist y).run z = false := by
  unfold State.isFree State.holder
  simp only [Option.isNone_iff_eq_none, List.find?_eq_none, State.mem_hoistsOf, Bool.not_eq_true]

theorem State.holder_spec {s : State} {c : Compartment} {z : Nat} {x : HoistId} (e : s.holder c z = some x) :
    (s.hoist x).inCompartment c = true ∧ inRun (s.hoist x).run z = true :=
  by
  unfold State.holder at e
  exact ⟨State.mem_hoistsOf.1 (List.mem_of_find?_eq_some e), List.find?_some (p := fun h => inRun (s.hoist h).run z) e⟩

theorem Hoist.inCompartment_iff {r : Hoist} {c : Compartment} :
    r.inCompartment c = true ↔ ∃ k, r.config = some k ∧ k.compartment = c := by
  unfold Hoist.inCompartment
  cases r.config <;> simp

theorem Hoist.inCompartment_config {r r' : Hoist} (e : r'.config = r.config) (c : Compartment) :
    r'.inCompartment c = r.inCompartment c := by
  unfold Hoist.inCompartment
  rw [e]

theorem Hoist.rank_config {r r' : Hoist} (e : r'.config = r.config) : r'.rank = r.rank := by
  unfold Hoist.rank
  rw [e]

/-! ### Changes of the hoists alone -/

/-- Nothing changes but the hoists. -/
def State.HoistsAlone (s t : State) : Prop := t = { s with hoists := t.hoists }

theorem State.HoistsAlone.same (s : State) : s.HoistsAlone s := rfl

theorem State.HoistsAlone.trans {s t u : State} (a : s.HoistsAlone t) (b : t.HoistsAlone u) : s.HoistsAlone u := by
  unfold State.HoistsAlone at *
  rw [b, a]

theorem State.HoistsAlone.mod (s : State) (h : HoistId) (f : Hoist → Hoist) : s.HoistsAlone (s.modHoist h f) := rfl

theorem State.HoistsAlone.comp {s t : State} (a : s.HoistsAlone t) (c : Compartment) : t.comp c = s.comp c := by
  unfold State.HoistsAlone at a
  rw [a]
  cases c <;> rfl

theorem State.HoistsAlone.shaft {s t : State} (a : s.HoistsAlone t) : t.shaft = s.shaft := by
  unfold State.HoistsAlone at a
  rw [a]

/-! ### The move part -/

theorem Hoist.modMove_eq (r : Hoist) (f : Move → Move) : r.modMove f = { r with move := r.move.map f } := by
  obtain ⟨⟩ := r
  unfold Hoist.modMove
  dsimp only
  split <;> rfl

theorem Hoist.setWaited_move (r : Hoist) : r.setWaited.move = r.move.map fun m => { m with waited := true } := by
  unfold Hoist.setWaited
  rw [Hoist.modMove_eq]

/-! ### What a walk does to a hoist -/

/-- A hoist that may have been walked: its claims alone differ, and with no pending extent its run and its move
are as they were (R66). -/
structure Hoist.Walked (r r' : Hoist) : Prop where
  only : r.OnlyClaims r'
  still : r.extent = [] → r'.run = r.run ∧ r'.extent = [] ∧ r'.move = r.move

theorem Hoist.Walked.same (r : Hoist) : r.Walked r := ⟨⟨rfl, .inl rfl⟩, fun e => ⟨rfl, e, rfl⟩⟩

theorem Hoist.OnlyClaims.trans {r r' r'' : Hoist} (a : r.OnlyClaims r') (b : r'.OnlyClaims r'') : r.OnlyClaims r'' := by
  obtain ⟨ea, ma⟩ := a
  obtain ⟨eb, mb⟩ := b
  refine ⟨by rw [eb, ea], ?_⟩
  rw [Hoist.setWaited_move] at *
  rcases ma with ma | ma <;> rcases mb with mb | mb <;> rw [mb, ma]
  · exact .inl rfl
  · exact .inr rfl
  · exact .inr rfl
  · right
    cases r.move <;> rfl

theorem Hoist.Walked.trans {r r' r'' : Hoist} (a : r.Walked r') (b : r'.Walked r'') : r.Walked r'' := by
  refine ⟨a.only.trans b.only, fun e => ?_⟩
  obtain ⟨run, extent, move⟩ := a.still e
  obtain ⟨run', extent', move'⟩ := b.still extent
  exact ⟨run'.trans run, extent', move'.trans move⟩

section Only

variable {r r' : Hoist} (a : r.OnlyClaims r')

include a

theorem Hoist.OnlyClaims.config : r'.config = r.config := by rw [a.1]

theorem Hoist.OnlyClaims.state : r'.state = r.state := by rw [a.1]

theorem Hoist.OnlyClaims.moveOpen : r'.moveOpen = r.moveOpen := by
  obtain ⟨-, m | m⟩ := a
  · unfold Hoist.moveOpen
    rw [m]
  · rw [Hoist.setWaited_move] at m
    unfold Hoist.moveOpen
    rw [m]
    cases r.move <;> rfl

theorem Hoist.OnlyClaims.moveDirection : r'.moveDirection = r.moveDirection := by
  obtain ⟨-, m | m⟩ := a
  · unfold Hoist.moveDirection
    rw [m]
  · rw [Hoist.setWaited_move] at m
    unfold Hoist.moveDirection
    rw [m]
    cases r.move <;> rfl

end Only

/-- A hoist with what its walk has left of its run and extent; WAITED is set where the walk ends at a held zone (R65, R66). -/
def Hoist.walkedTo (r : Hoist) (out : Option Run × List Nat) : Hoist :=
  { r with run := out.1, extent := out.2, move := if out.2 = [] then r.move else r.setWaited.move }

theorem Hoist.walkedTo_move (r : Hoist) (out : Option Run × List Nat) :
    (r.walkedTo out).move = r.move ∨ (r.walkedTo out).move = r.setWaited.move := by
  unfold Hoist.walkedTo
  dsimp only
  split
  · exact .inl rfl
  · exact .inr rfl

theorem State.walk_eq {s : State} {h : HoistId} {k : HoistConfig} (e : (s.hoist h).config = some k) :
    let r := s.hoist h
    let out := walkZones (s.isFree k.compartment) r.moveDirection r.extent r.run
    s.walk h =
      if out.1 = r.run then s.setHoist h (r.walkedTo out) else (s.setHoist h (r.walkedTo out)).recompute h := by
  intro r out
  have left : (if out.2 = [] then { r with run := out.1, extent := out.2 }
      else Hoist.setWaited { r with run := out.1, extent := out.2 }) = r.walkedTo out := by
    unfold Hoist.walkedTo
    rw [Hoist.setWaited_move]
    unfold Hoist.setWaited
    rw [Hoist.modMove_eq]
    split <;> rfl
  rw [← left]
  unfold State.walk
  dsimp only
  split
  · rename_i k' e'
    obtain rfl : k = k' := Option.some.inj (e.symm.trans e')
    rfl
  · rename_i e'
    exact absurd (e.symm.trans e') nofun

/-- The hoist a walk leaves, but for its envelope. -/
theorem State.hoist_walk_self {s : State} {h : HoistId} {k : HoistConfig} (e : (s.hoist h).config = some k) :
    ∃ down up, (s.walk h).hoist h =
      { (s.hoist h).walkedTo (walkZones (s.isFree k.compartment) (s.hoist h).moveDirection (s.hoist h).extent
          (s.hoist h).run) with envDown := down, envUp := up } := by
  rw [State.walk_eq e]
  split
  · exact ⟨(s.hoist h).envDown, (s.hoist h).envUp, by rw [State.setHoist_hoist_self]; rfl⟩
  · exact ⟨_, _, by rw [State.hoist_recompute, if_pos rfl, State.setHoist_hoist_self]⟩

theorem State.hoist_walk_other (s : State) {h y : HoistId} (ne : y ≠ h) : (s.walk h).hoist y = s.hoist y := by
  unfold State.walk
  dsimp only
  split
  · split
    · rw [State.setHoist_hoist_ne _ ne]
    · rw [State.hoist_recompute, if_neg ne, State.setHoist_hoist_ne _ ne]
  · rfl

theorem State.walk_unconfigured {s : State} {h : HoistId} (e : (s.hoist h).config = none) : s.walk h = s := by
  unfold State.walk
  dsimp only
  rw [e]

theorem State.walk_alone (s : State) (h : HoistId) : s.HoistsAlone (s.walk h) := by
  unfold State.walk
  dsimp only
  split
  · split <;> rfl
  · rfl

theorem State.walk_walked (s : State) (h y : HoistId) : (s.hoist y).Walked ((s.walk h).hoist y) := by
  by_cases ne : y = h
  · subst ne
    cases e : (s.hoist y).config with
    | none => rw [State.walk_unconfigured e]; exact .same _
    | some k =>
      obtain ⟨down, up, walked⟩ := State.hoist_walk_self e
      rw [walked]
      refine ⟨⟨rfl, Hoist.walkedTo_move _ _⟩, fun none => ?_⟩
      rw [none]
      exact ⟨rfl, rfl, rfl⟩
  · rw [State.hoist_walk_other s ne]
    exact .same _

theorem State.offer_alone (s : State) (c : Compartment) (z : Nat) : s.HoistsAlone (s.offer c z) := by
  unfold State.offer
  split
  · exact s.walk_alone _
  · rfl

theorem State.offer_walked (s : State) (c : Compartment) (z : Nat) (y : HoistId) :
    (s.hoist y).Walked ((s.offer c z).hoist y) := by
  unfold State.offer
  split
  · exact s.walk_walked _ y
  · exact .same _

theorem State.offerAll_alone (s : State) (c : Compartment) (zs : List Nat) : s.HoistsAlone (s.offerAll c zs) := by
  induction zs generalizing s with
  | nil => rfl
  | cons z zs ih => exact (s.offer_alone c z).trans (ih _)

theorem State.offerAll_walked (s : State) (c : Compartment) (zs : List Nat) (y : HoistId) :
    (s.hoist y).Walked ((s.offerAll c zs).hoist y) := by
  induction zs generalizing s with
  | nil => exact .same _
  | cons z zs ih => exact (s.offer_walked c z y).trans (ih _)

/-- The state before the offers of a run that is set (R69). -/
def State.withRun (s : State) (h : HoistId) (run : Option Run) : State :=
  (s.modHoist h fun r => { r with run := run }).recompute h

theorem State.setRun_eq {s : State} {h : HoistId} {k : HoistConfig} (e : (s.hoist h).config = some k)
    (run : Option Run) (left : List Nat) :
    s.setRun h run left = (s.withRun h run).offerAll k.compartment left := by
  have same : ((s.withRun h run).hoist h).config = some k := by
    unfold State.withRun
    rw [State.hoist_recompute, if_pos rfl, State.modHoist_hoist_self]
    exact e
  unfold State.setRun
  change (match ((s.withRun h run).hoist h).config with
    | some k => (s.withRun h run).offerAll k.compartment left
    | none => s.withRun h run) = _
  rw [same]

theorem State.setRun_unconfigured {s : State} {h : HoistId} (e : (s.hoist h).config = none) (run : Option Run)
    (left : List Nat) : s.setRun h run left = s.withRun h run := by
  have same : ((s.withRun h run).hoist h).config = none := by
    unfold State.withRun
    rw [State.hoist_recompute, if_pos rfl, State.modHoist_hoist_self]
    exact e
  unfold State.setRun
  change (match ((s.withRun h run).hoist h).config with
    | some k => (s.withRun h run).offerAll k.compartment left
    | none => s.withRun h run) = _
  rw [same]

theorem State.hoist_withRun_self (s : State) (h : HoistId) (run : Option Run) :
    ∃ down up, (s.withRun h run).hoist h = { s.hoist h with run := run, envDown := down, envUp := up } :=
  ⟨_, _, by unfold State.withRun; rw [State.hoist_recompute, if_pos rfl, State.modHoist_hoist_self]⟩

theorem State.hoist_withRun_other (s : State) {h y : HoistId} (ne : y ≠ h) (run : Option Run) :
    (s.withRun h run).hoist y = s.hoist y := by
  unfold State.withRun
  rw [State.hoist_recompute, if_neg ne, State.modHoist_hoist_ne _ ne]

theorem State.setRun_alone (s : State) (h : HoistId) (run : Option Run) (left : List Nat) :
    s.HoistsAlone (s.setRun h run left) := by
  cases e : (s.hoist h).config with
  | none => rw [State.setRun_unconfigured e]; rfl
  | some k =>
    rw [State.setRun_eq e]
    exact .trans (t := s.withRun h run) rfl (State.offerAll_alone _ _ _)

theorem State.setRun_walked (s : State) (h : HoistId) (run : Option Run) (left : List Nat) (y : HoistId) :
    ((s.withRun h run).hoist y).Walked ((s.setRun h run left).hoist y) := by
  cases e : (s.hoist h).config with
  | none => rw [State.setRun_unconfigured e]; exact .same _
  | some k => rw [State.setRun_eq e]; exact State.offerAll_walked _ _ _ _

/-- Where a hoist's run is set, of the others the claims alone may change. -/
theorem State.setRun_other (s : State) (h : HoistId) (run : Option Run) (left : List Nat) {y : HoistId} (ne : y ≠ h) :
    (s.hoist y).Walked ((s.setRun h run left).hoist y) := by
  have := s.setRun_walked h run left y
  rwa [State.hoist_withRun_other s ne] at this

theorem State.setRun_only (s : State) (h : HoistId) (run : Option Run) (left : List Nat) (y : HoistId) :
    (s.hoist y).OnlyClaims ((s.setRun h run left).hoist y) := by
  refine .trans ?_ (s.setRun_walked h run left y).only
  by_cases ne : y = h
  · subst ne
    obtain ⟨down, up, e⟩ := s.hoist_withRun_self y run
    rw [e]
    exact ⟨rfl, .inl rfl⟩
  · rw [State.hoist_withRun_other s ne]
    exact ⟨rfl, .inl rfl⟩

/-- A hoist with no pending extent is left with the run it is set to, and is not walked. -/
theorem State.setRun_self {s : State} {h : HoistId} (run : Option Run) (left : List Nat) (e : (s.hoist h).extent = []) :
    ((s.setRun h run left).hoist h).run = run ∧ ((s.setRun h run left).hoist h).extent = [] ∧
      ((s.setRun h run left).hoist h).move = (s.hoist h).move := by
  have walked := s.setRun_walked h run left h
  obtain ⟨down, up, set⟩ := s.hoist_withRun_self h run
  rw [set] at walked
  exact walked.still e

end Sys2Proof.Machine
end

section
/-! ## What keeps runs apart, in rank order, and extents in place -/

namespace Sys2Proof.Machine

/-! ### The claims as they stand between hoists -/

/-- Runs and extents are in place and no zone lies in two runs; and a hoist awaits a free zone only where that is excused. In
the midst of a change of claims some waits stand until the zone is offered or the extent is walked (R61, R64, R65). -/
structure State.Spaced (s : State) (excused : HoistId → Compartment → Nat → Prop) : Prop where
  extents : ∀ h, ExtentFits (s.hoist h).run (s.hoist h).moveDirection (s.hoist h).extent
  shared : ∀ x y c z, x ≠ y → (s.hoist x).inCompartment c = true → (s.hoist y).inCompartment c = true →
    inRun (s.hoist x).run z = true → inRun (s.hoist y).run z = false
  awaited : ∀ h k z, (s.hoist h).config = some k → (s.hoist h).extent.head? = some z →
    s.isFree k.compartment z = true → excused h k.compartment z

/-- No wait is excused. -/
abbrev NoWait : HoistId → Compartment → Nat → Prop := fun _ _ _ => False

/-- The zones still to be offered in a compartment may be awaited (R69). -/
abbrev Offered (c : Compartment) (zs : List Nat) : HoistId → Compartment → Nat → Prop := fun _ d z => d = c ∧ z ∈ zs

/-- The rank order zone by zone (R62). -/
def State.Ranked (s : State) : Prop :=
  ∀ x y c v w, (s.hoist x).inCompartment c = true → (s.hoist y).inCompartment c = true →
    (s.hoist x).rank < (s.hoist y).rank → inRun (s.hoist x).run v = true → inRun (s.hoist y).run w = true → v < w

/-- What holds of a hoist by itself: outside supervision it has no run, its move is open exactly in MOVING and STOPPING, and an
extent pends in MOVING alone (R36, R62, R64, R72). -/
structure Hoist.Settled (r : Hoist) : Prop where
  outside : r.state.supervised = false → r.run = none
  moves : r.moveOpen = true ↔ r.state = .moving ∨ r.state = .stopping
  pends : r.extent ≠ [] → r.state = .moving

/-- The claims of a state, as `State.ClaimsSound` has them. -/
structure State.Claimed (s : State) : Prop where
  settled : ∀ h, (s.hoist h).Settled
  spaced : s.Spaced NoWait

theorem State.Spaced.blocks {s : State} {p : HoistId → Compartment → Nat → Prop} (x : s.Spaced p) (h : HoistId) :
    Block (s.hoist h).run := (x.extents h).block

theorem State.Spaced.excuse {s : State} {p q : HoistId → Compartment → Nat → Prop} (x : s.Spaced p)
    (more : ∀ h c z, s.isFree c z = true → p h c z → q h c z) : s.Spaced q :=
  ⟨x.extents, x.shared, fun h k z e m f => more _ _ _ f (x.awaited h k z e m f)⟩

/-- An awaited zone is held by another hoist exactly when it is not free: it lies beyond the run of the one that awaits it. -/
theorem awaited_held_iff {s : State} {h : HoistId} {k : HoistConfig} {z : Nat}
    (fits : ExtentFits (s.hoist h).run (s.hoist h).moveDirection (s.hoist h).extent)
    (head : (s.hoist h).extent.head? = some z) :
    (∃ x, x ≠ h ∧ s.holder k.compartment z = some x) ↔ s.isFree k.compartment z = false := by
  unfold State.isFree
  rw [Option.isNone_eq_false_iff, Option.isSome_iff_exists]
  refine ⟨fun ⟨x, _, e⟩ => ⟨x, e⟩, fun ⟨x, e⟩ => ⟨x, ?_, e⟩⟩
  rintro rfl
  have inside := (State.holder_spec e).2
  obtain ⟨rest, extent⟩ : ∃ rest, (s.hoist x).extent = z :: rest := List.head?_eq_some_iff.1 head
  rw [extent] at fits
  rw [fits.head_beyond] at inside
  cases inside

theorem State.claimsSound_iff {s : State} : s.ClaimsSound ↔ s.Claimed := by
  constructor
  · rintro ⟨outside, moves, pends, extents, shared, awaited⟩
    have fits : ∀ h, ExtentFits (s.hoist h).run (s.hoist h).moveDirection (s.hoist h).extent :=
      fun h => Hoist.extentOk_iff.1 (extents h)
    refine ⟨fun h => ⟨outside h, moves h, pends h⟩, fits, fun x y c z ne hx hy => ?_, fun h k z e head free => ?_⟩
    · exact (apart_iff (fits x).block (fits y).block).1 (shared x y c ne hx hy) z
    · rw [(awaited_held_iff (fits h) head).1 (awaited h k z e head)] at free
      cases free
  · rintro ⟨settled, extents, shared, awaited⟩
    refine ⟨fun h => (settled h).outside, fun h => (settled h).moves, fun h => (settled h).pends,
      fun h => Hoist.extentOk_iff.2 (extents h), fun x y c ne hx hy => ?_, fun h k z e head => ?_⟩
    · exact (apart_iff (extents x).block (extents y).block).2 fun z => shared x y c z ne hx hy
    · exact (awaited_held_iff (extents h) head).2 (Bool.eq_false_iff.2 (awaited h k z e head))

theorem State.rankOrder_iff {s : State} (claimed : s.Claimed) : s.RankOrder ↔ s.Ranked := by
  have blocks := claimed.spaced.blocks
  exact ⟨fun o x y c v w hx hy less => (above_iff (blocks x) (blocks y)).1 (o x y c hx hy less) v w,
    fun o x y c hx hy less => (above_iff (blocks x) (blocks y)).2 fun v w => o x y c v w hx hy less⟩

/-! ### Changes that leave the runs alone -/

/-- The run is as it was, and the extent is as it was or is gone. -/
structure Hoist.SameRun (r r' : Hoist) : Prop where
  config : r'.config = r.config
  run : r'.run = r.run
  extent : r'.extent = r.extent ∧ r'.moveDirection = r.moveDirection ∨ r'.extent = []

theorem Hoist.SameRun.same (r : Hoist) : r.SameRun r := ⟨rfl, rfl, .inl ⟨rfl, rfl⟩⟩

theorem State.isFree_congr {s t : State} (config : ∀ h, (t.hoist h).config = (s.hoist h).config)
    (run : ∀ h, (t.hoist h).run = (s.hoist h).run) (c : Compartment) (z : Nat) : t.isFree c z = s.isFree c z := by
  rw [Bool.eq_iff_iff, State.isFree_iff, State.isFree_iff]
  exact forall_congr' fun h => by rw [Hoist.inCompartment_config (config h), run h]

theorem State.Spaced.of_sameRun {s t : State} {p : HoistId → Compartment → Nat → Prop}
    (same : ∀ h, (s.hoist h).SameRun (t.hoist h)) (x : s.Spaced p) : t.Spaced p := by
  refine ⟨fun h => ?_, fun a b c z ne ha hb m => ?_, fun h k z e head free => ?_⟩
  · rw [(same h).run]
    rcases (same h).extent with ⟨extent, dir⟩ | none
    · rw [extent, dir]
      exact x.extents h
    · rw [none]
      exact extentFits_nil.2 (x.blocks h)
  · rw [Hoist.inCompartment_config (same a).config] at ha
    rw [Hoist.inCompartment_config (same b).config] at hb
    rw [(same a).run] at m
    rw [(same b).run]
    exact x.shared a b c z ne ha hb m
  · rcases (same h).extent with ⟨extent, -⟩ | none
    · rw [extent] at head
      rw [(same h).config] at e
      rw [State.isFree_congr (fun h => (same h).config) fun h => (same h).run] at free
      exact x.awaited h k z e head free
    · rw [none] at head
      cases head

theorem State.Ranked.of_runs {s t : State} (config : ∀ h, (t.hoist h).config = (s.hoist h).config)
    (sub : ∀ h z, inRun (t.hoist h).run z = true → inRun (s.hoist h).run z = true) (x : s.Ranked) : t.Ranked := by
  intro a b c v w ha hb less hv hw
  rw [Hoist.inCompartment_config (config a)] at ha
  rw [Hoist.inCompartment_config (config b)] at hb
  rw [Hoist.rank_config (config a), Hoist.rank_config (config b)] at less
  exact x a b c v w ha hb less (sub a v hv) (sub b w hw)

theorem State.Ranked.of_sameRun {s t : State} (same : ∀ h, (s.hoist h).SameRun (t.hoist h)) (x : s.Ranked) : t.Ranked :=
  x.of_runs (fun h => (same h).config) fun h z m => by rwa [(same h).run] at m

/-! ### A run that spreads over free zones -/

/-- One hoist's run has taken free zones of its compartment, without a gap, and nothing else has changed between hoists. -/
structure State.Spreads (s t : State) (h : HoistId) : Prop where
  others : ∀ y, y ≠ h → t.hoist y = s.hoist y
  config : (t.hoist h).config = (s.hoist h).config
  keeps : ∀ z, inRun (s.hoist h).run z = true → inRun (t.hoist h).run z = true
  takes : ∀ z, inRun (t.hoist h).run z = true →
    inRun (s.hoist h).run z = true ∨ ∀ c, (s.hoist h).inCompartment c = true → s.isFree c z = true
  from_run : ∀ z, inRun (t.hoist h).run z = true → ∃ y, inRun (s.hoist h).run y = true

section Spreads

variable {s t : State} {h : HoistId} (g : s.Spreads t h)

include g

theorem State.Spreads.config_all (y : HoistId) : (t.hoist y).config = (s.hoist y).config := by
  by_cases ne : y = h
  · rw [ne, g.config]
  · rw [g.others y ne]

theorem State.Spreads.keeps_all {y : HoistId} {z : Nat} (m : inRun (s.hoist y).run z = true) :
    inRun (t.hoist y).run z = true := by
  by_cases ne : y = h
  · rw [ne] at m ⊢
    exact g.keeps z m
  · rwa [g.others y ne]

/-- A zone that is free afterwards was free before. -/
theorem State.Spreads.isFree {c : Compartment} {z : Nat} (free : t.isFree c z = true) : s.isFree c z = true := by
  rw [State.isFree_iff] at *
  intro y inside
  by_contra held
  rw [Bool.not_eq_false] at held
  have := free y (by rwa [Hoist.inCompartment_config (g.config_all y)])
  rw [g.keeps_all held] at this
  cases this

/-- A zone of a run afterwards was in that run, or it was free and the run is the one that has spread. -/
theorem State.Spreads.takes_all {y : HoistId} {z : Nat} (m : inRun (t.hoist y).run z = true) :
    inRun (s.hoist y).run z = true ∨ y = h ∧ ∀ c, (s.hoist h).inCompartment c = true → s.isFree c z = true := by
  by_cases ne : y = h
  · subst ne
    exact (g.takes z m).imp_right fun f => ⟨rfl, f⟩
  · rw [g.others y ne] at m
    exact .inl m

theorem State.Spreads.shared {p : HoistId → Compartment → Nat → Prop} (x : s.Spaced p) (a b : HoistId) (c : Compartment)
    (z : Nat) (ne : a ≠ b) (ha : (t.hoist a).inCompartment c = true) (hb : (t.hoist b).inCompartment c = true)
    (ma : inRun (t.hoist a).run z = true) : inRun (t.hoist b).run z = false := by
  rw [Hoist.inCompartment_config (g.config_all _)] at ha hb
  by_contra mb
  rw [Bool.not_eq_false] at mb
  rcases g.takes_all ma with oldA | ⟨rfl, free⟩
  · rcases g.takes_all mb with oldB | ⟨rfl, free⟩
    · rw [x.shared a b c z ne ha hb oldA] at oldB
      cases oldB
    · rw [State.isFree_iff.1 (free c hb) a ha] at oldA
      cases oldA
  · rw [g.others b ne.symm, State.isFree_iff.1 (free c ha) b hb] at mb
    cases mb

/-- A run does not pass over another by taking free zones. -/
theorem State.Spreads.ranked {p : HoistId → Compartment → Nat → Prop} (x : s.Spaced p) (o : s.Ranked) : t.Ranked := by
  intro a b c v w ha hb less mv mw
  have apart_ : ∀ z, inRun (t.hoist a).run z = true → inRun (t.hoist b).run z = false :=
    fun z => g.shared x a b c z (fun e => absurd less (by rw [e]; exact Nat.lt_irrefl _)) ha hb
  have old : ∀ v w, inRun (s.hoist a).run v = true → inRun (s.hoist b).run w = true → v < w := by
    rw [Hoist.inCompartment_config (g.config_all _)] at ha hb
    rw [Hoist.rank_config (g.config_all _), Hoist.rank_config (g.config_all _)] at less
    exact fun v w => o a b c v w ha hb less
  have from_old : ∀ {y z}, inRun (t.hoist y).run z = true → ∃ u, inRun (s.hoist y).run u = true := by
    intro y z m
    rcases g.takes_all m with old | ⟨rfl, -⟩
    · exact ⟨z, old⟩
    · exact g.from_run z m
  obtain ⟨v', hv'⟩ := from_old mv
  obtain ⟨w', hw'⟩ := from_old mw
  have before := old v' w' hv' hw'
  by_contra not
  rw [Nat.not_lt] at not
  have inA := g.keeps_all hv'
  have inB := g.keeps_all hw'
  by_cases reach : w ≤ v'
  · have := apart_ v' inA
    rw [inRun_between mw inB reach before.le] at this
    cases this
  · have := apart_ w (inRun_between inA mv (by omega) not)
    rw [mw] at this
    cases this

end Spreads

/-! ### Walks and offers -/

theorem State.walk_spreads {s : State} {p : HoistId → Compartment → Nat → Prop} (x : s.Spaced p) {h : HoistId}
    {k : HoistConfig} (e : (s.hoist h).config = some k) : s.Spreads (s.walk h) h := by
  have fits := x.extents h
  have run : ((s.walk h).hoist h).run = (walkZones (s.isFree k.compartment) (s.hoist h).moveDirection
      (s.hoist h).extent (s.hoist h).run).1 := by
    obtain ⟨down, up, walked⟩ := State.hoist_walk_self e
    rw [walked]
    rfl
  refine ⟨fun y ne => s.hoist_walk_other ne, (s.walk_walked h h).only.config, ?_, ?_, ?_⟩
  · intro z m
    rw [run]
    exact walkZones_keeps fits m
  · intro z m
    rw [run] at m
    refine (walkZones_takes fits m).imp_right fun free c inside => ?_
    obtain ⟨k', e', rfl⟩ := Hoist.inCompartment_iff.1 inside
    obtain rfl : k = k' := Option.some.inj (e.symm.trans e')
    exact free
  · intro z m
    rw [run] at m
    cases e : (s.hoist h).run with
    | none =>
      rw [e] at fits m
      rw [show (s.hoist h).extent = [] from fits] at m
      cases m
    | some r =>
      rw [e] at fits
      exact ⟨_, fits.1.some_zone⟩

/-- A walk leaves its hoist waiting for no free zone. -/
theorem State.walk_spaced {s : State} {p : HoistId → Compartment → Nat → Prop} (x : s.Spaced p) (h : HoistId) :
    (s.walk h).Spaced (fun y c z => y ≠ h ∧ p y c z) ∧ (s.Ranked → (s.walk h).Ranked) := by
  cases e : (s.hoist h).config with
  | none =>
    rw [State.walk_unconfigured e]
    refine ⟨⟨x.extents, x.shared, fun y k z config head free => ⟨?_, x.awaited y k z config head free⟩⟩, id⟩
    rintro rfl
    rw [e] at config
    cases config
  | some k =>
    have g := State.walk_spreads x e
    obtain ⟨down, up, walked⟩ := State.hoist_walk_self e
    refine ⟨⟨fun y => ?_, g.shared x, fun y k' z config head free => ?_⟩, g.ranked x⟩
    · by_cases ne : y = h
      · subst ne
        rw [(s.walk_walked y y).only.moveDirection, walked]
        exact walkZones_fits (x.extents y)
      · rw [g.others y ne]
        exact x.extents y
    · have free' := g.isFree free
      by_cases ne : y = h
      · subst ne
        rw [g.config] at config
        obtain rfl : k = k' := Option.some.inj (e.symm.trans config)
        rw [walked] at head
        rw [walkZones_stops head] at free'
        cases free'
      · rw [g.others y ne] at config head
        exact ⟨ne, x.awaited y k' z config head free'⟩

/-- A walk takes the zone awaited, if it is free. -/
theorem State.walk_takes_awaited {s : State} {p : HoistId → Compartment → Nat → Prop} (x : s.Spaced p) {h : HoistId}
    {k : HoistConfig} {z : Nat} (e : (s.hoist h).config = some k) (head : (s.hoist h).extent.head? = some z) :
    (s.walk h).isFree k.compartment z = false := by
  have g := State.walk_spreads x e
  rw [Bool.eq_false_iff]
  intro free
  have taken : inRun ((s.walk h).hoist h).run z = true := by
    obtain ⟨rest, extent⟩ : ∃ rest, (s.hoist h).extent = z :: rest := List.head?_eq_some_iff.1 head
    obtain ⟨down, up, walked⟩ := State.hoist_walk_self e
    rw [walked]
    have fits := x.extents h
    rw [extent] at fits ⊢
    exact walkZones_first fits (g.isFree free)
  rw [State.isFree_iff.1 free h (Hoist.inCompartment_iff.2 ⟨k, g.config.trans e, rfl⟩)] at taken
  cases taken

theorem foldl_choose_mem {α : Type} (p : α → α → Bool) (a : α) (xs : List α) :
    xs.foldl (fun best x => if p x best = true then x else best) a ∈ a :: xs := by
  induction xs generalizing a with
  | nil => exact List.mem_singleton.2 rfl
  | cons x xs ih =>
    rw [List.foldl_cons]
    split
    · exact List.mem_cons_of_mem _ (ih x)
    · exact List.cons_subset_cons a (List.subset_cons_self x xs) (ih a)

/-- The hoists that await a zone (R69). -/
theorem State.mem_waiters {s : State} {c : Compartment} {z : Nat} {h : HoistId} :
    h ∈ ((s.hoistsOf c).filter fun h => (s.hoist h).awaited == some z) ↔
      (s.hoist h).inCompartment c = true ∧ (s.hoist h).extent.head? = some z := by
  rw [List.mem_filter, State.mem_hoistsOf, beq_iff_eq]
  rfl

theorem State.waiterFor_some {s : State} {c : Compartment} {z : Nat} {h : HoistId} (e : s.waiterFor c z = some h) :
    (s.hoist h).inCompartment c = true ∧ (s.hoist h).extent.head? = some z := by
  unfold State.waiterFor at e
  split at e
  · cases e
  · rename_i first rest waiters
    cases e
    rw [← State.mem_waiters, waiters]
    exact foldl_choose_mem s.waitsBefore first rest

theorem State.waiterFor_none {s : State} {c : Compartment} {z : Nat} (e : s.waiterFor c z = none) (h : HoistId)
    (inside : (s.hoist h).inCompartment c = true) : (s.hoist h).extent.head? ≠ some z := by
  unfold State.waiterFor at e
  split at e
  · rename_i waiters
    intro head
    have := State.mem_waiters.2 ⟨inside, head⟩
    rw [waiters] at this
    cases this
  · cases e

/-- An offered zone is taken by the hoist that awaits it, so none awaits it while it is free (R69). -/
theorem State.offer_spaced {s : State} {c : Compartment} {z : Nat} {zs : List Nat} (x : s.Spaced (Offered c (z :: zs))) :
    (s.offer c z).Spaced (Offered c zs) ∧ (s.Ranked → (s.offer c z).Ranked) := by
  unfold State.offer
  split
  · rename_i h e
    obtain ⟨inside, head⟩ := State.waiterFor_some e
    obtain ⟨k, config, rfl⟩ := Hoist.inCompartment_iff.1 inside
    have taken := State.walk_takes_awaited x config head
    refine ⟨(State.walk_spaced x h).1.excuse ?_, (State.walk_spaced x h).2⟩
    rintro y d v free ⟨-, rfl, m⟩
    refine ⟨rfl, (List.mem_cons.1 m).resolve_left ?_⟩
    rintro rfl
    rw [taken] at free
    cases free
  · rename_i e
    refine ⟨⟨x.extents, x.shared, fun h k v config head free => ?_⟩, id⟩
    obtain ⟨d, m⟩ := x.awaited h k v config head free
    refine ⟨d, (List.mem_cons.1 m).resolve_left ?_⟩
    rintro rfl
    exact State.waiterFor_none e h (Hoist.inCompartment_iff.2 ⟨k, config, d⟩) head

theorem State.offerAll_spaced {s : State} {c : Compartment} {zs : List Nat} (x : s.Spaced (Offered c zs)) :
    (s.offerAll c zs).Spaced NoWait ∧ (s.Ranked → (s.offerAll c zs).Ranked) := by
  induction zs generalizing s with
  | nil => exact ⟨x.excuse fun _ _ _ _ ⟨_, m⟩ => absurd m List.not_mem_nil, id⟩
  | cons z zs ih =>
    obtain ⟨first, rank⟩ := State.offer_spaced x
    obtain ⟨rest, ranks⟩ := ih first
    exact ⟨rest, fun o => ranks (rank o)⟩

/-! ### Runs that are set -/

/-- A run set to zones that are all its own or free, where those it loses are on offer. -/
theorem State.setRun_spaced {s : State} {h : HoistId} {run : Option Run} {left : List Nat}
    (configured : ∀ k, (s.hoist h).config = some k → (s.withRun h run).Spaced (Offered k.compartment left))
    (unconfigured : (s.hoist h).config = none → (s.withRun h run).Spaced NoWait) :
    (s.setRun h run left).Spaced NoWait ∧ ((s.withRun h run).Ranked → (s.setRun h run left).Ranked) := by
  cases e : (s.hoist h).config with
  | none =>
    rw [State.setRun_unconfigured e]
    exact ⟨unconfigured e, id⟩
  | some k =>
    rw [State.setRun_eq e]
    exact State.offerAll_spaced (configured k e)

theorem State.withRun_config (s : State) (h : HoistId) (run : Option Run) (y : HoistId) :
    ((s.withRun h run).hoist y).config = (s.hoist y).config := by
  by_cases ne : y = h
  · obtain ⟨down, up, e⟩ := s.hoist_withRun_self h run
    rw [ne, e]
  · rw [State.hoist_withRun_other s ne]

theorem State.withRun_extent (s : State) (h : HoistId) (run : Option Run) (y : HoistId) :
    ((s.withRun h run).hoist y).extent = (s.hoist y).extent := by
  by_cases ne : y = h
  · obtain ⟨down, up, e⟩ := s.hoist_withRun_self h run
    rw [ne, e]
  · rw [State.hoist_withRun_other s ne]

theorem State.withRun_run (s : State) (h : HoistId) (run : Option Run) (y : HoistId) :
    ((s.withRun h run).hoist y).run = if y = h then run else (s.hoist y).run := by
  by_cases ne : y = h
  · obtain ⟨down, up, e⟩ := s.hoist_withRun_self h run
    rw [ne, e, if_pos rfl]
  · rw [State.hoist_withRun_other s ne, if_neg ne]

/-- A run set clear of the other runs keeps the runs apart; the waits for the zones it loses are excused. -/
theorem State.withRun_spaced {s : State} (x : s.Spaced NoWait) {h : HoistId} {run : Option Run} {left : List Nat}
    (clear : ∀ z y c, y ≠ h → (s.hoist h).inCompartment c = true → (s.hoist y).inCompartment c = true →
      inRun run z = true → inRun (s.hoist y).run z = false)
    (lost : ∀ z, inRun (s.hoist h).run z = true → inRun run z = true ∨ z ∈ left)
    (fits : ExtentFits run (s.hoist h).moveDirection (s.hoist h).extent) :
    (s.withRun h run).Spaced (fun _ c z => (s.hoist h).inCompartment c = true ∧ z ∈ left) := by
  have config := s.withRun_config h run
  refine ⟨fun y => ?_, fun a b c z ne ha hb m => ?_, fun y k z e head free => ?_⟩
  · by_cases ne : y = h
    · subst ne
      obtain ⟨down, up, self⟩ := s.hoist_withRun_self y run
      rw [self]
      exact fits
    · rw [State.hoist_withRun_other s ne]
      exact x.extents y
  · rw [Hoist.inCompartment_config (config _)] at ha hb
    rw [State.withRun_run] at m ⊢
    by_cases ea : a = h
    · subst ea
      rw [if_pos rfl] at m
      rw [if_neg ne.symm]
      exact clear z b c ne.symm ha hb m
    · rw [if_neg ea] at m
      by_cases eb : b = h
      · subst eb
        rw [if_pos rfl]
        exact Bool.eq_false_iff.2 fun held => Bool.eq_false_iff.1 (clear z a c ea hb ha held) m
      · rw [if_neg eb]
        exact x.shared a b c z ne ha hb m
  · rw [config] at e
    rw [State.withRun_extent] at head
    have held := x.awaited y k z e head
    rw [imp_false, State.isFree_iff] at held
    push Not at held
    obtain ⟨v, inside, m⟩ := held
    rw [Ne, Bool.not_eq_false] at m
    have gone := State.isFree_iff.1 free v (by rwa [Hoist.inCompartment_config (config v)])
    rw [State.withRun_run] at gone
    by_cases ne : v = h
    · subst ne
      rw [if_pos rfl] at gone
      exact ⟨inside, (lost z m).resolve_left (Bool.eq_false_iff.1 gone)⟩
    · rw [if_neg ne, m] at gone
      cases gone

/-- A run set clear of the others, and the zones it loses offered (R54, R69). -/
theorem State.setRun_sets {s : State} (x : s.Spaced NoWait) {h : HoistId} {run : Option Run} {left : List Nat}
    (clear : ∀ z y c, y ≠ h → (s.hoist h).inCompartment c = true → (s.hoist y).inCompartment c = true →
      inRun run z = true → inRun (s.hoist y).run z = false)
    (lost : ∀ z, inRun (s.hoist h).run z = true → inRun run z = true ∨ z ∈ left)
    (fits : ExtentFits run (s.hoist h).moveDirection (s.hoist h).extent) :
    (s.setRun h run left).Spaced NoWait ∧ ((s.withRun h run).Ranked → (s.setRun h run left).Ranked) := by
  have spaced := State.withRun_spaced x clear lost fits
  refine State.setRun_spaced (fun k e => spaced.excuse fun _ c z _ ⟨inside, m⟩ => ?_)
    fun e => spaced.excuse fun _ c z _ ⟨inside, _⟩ => ?_
  · obtain ⟨k', e', rfl⟩ := Hoist.inCompartment_iff.1 inside
    obtain rfl : k = k' := Option.some.inj (e.symm.trans e')
    exact ⟨rfl, m⟩
  · obtain ⟨k', e', -⟩ := Hoist.inCompartment_iff.1 inside
    rw [e] at e'
    cases e'

/-- A run that loses zones, offered as they leave (R69). -/
theorem State.setRun_shrinks {s : State} (x : s.Spaced NoWait) {h : HoistId} {run : Option Run} {left : List Nat}
    (sub : ∀ z, inRun run z = true → inRun (s.hoist h).run z = true)
    (lost : ∀ z, inRun (s.hoist h).run z = true → inRun run z = true ∨ z ∈ left)
    (fits : ExtentFits run (s.hoist h).moveDirection (s.hoist h).extent) :
    (s.setRun h run left).Spaced NoWait ∧ (s.Ranked → (s.setRun h run left).Ranked) := by
  have set := State.setRun_sets x (fun z y c ne hh hy m => x.shared h y c z ne.symm hh hy (sub z m)) lost fits
  refine ⟨set.1, fun o => set.2 (o.of_runs (s.withRun_config h run) fun y z m => ?_)⟩
  rw [State.withRun_run] at m
  split at m
  · rename_i e
    exact e ▸ sub z m
  · exact m

end Sys2Proof.Machine
end

section
/-! ## What entering a state, a stop and a trip leave of a hoist -/

namespace Sys2Proof.Machine

/-! ### Entering a state -/

theorem State.hoist_enter_self (s : State) (h : HoistId) (st : HoistState) :
    ∃ down up, (s.enter h st).hoist h =
      { (s.hoist h).inState s.now s.timers st with envDown := down, envUp := up } :=
  ⟨_, _, by rw [State.hoist_enter, if_pos rfl]⟩

theorem State.hoist_enter_other (s : State) {h y : HoistId} (ne : y ≠ h) (st : HoistState) :
    (s.enter h st).hoist y = s.hoist y := by
  rw [State.hoist_enter, if_neg ne]

theorem State.hoist_recompute_other (s : State) {h y : HoistId} (ne : y ≠ h) :
    (s.recompute h).hoist y = s.hoist y := by
  rw [State.hoist_recompute, if_neg ne]

/-- A hoist in a state that takes no velocity, with what goes with the state (R33, R90, R106, R112). -/
def Hoist.atState (r : Hoist) (now : Nat) (t : TimerSettings) (st : HoistState) : Hoist :=
  { r.inState now t st with envDown := 0, envUp := 0 }

theorem State.recompute_rest {s : State} {h : HoistId} (rest : (s.hoist h).state.takesVelocity = false) :
    s.recompute h = s.setHoist h { s.hoist h with envDown := 0, envUp := 0 } := by
  unfold State.recompute State.modHoist
  dsimp only
  rw [State.envelope_rest _ _ rest, State.envelope_rest _ _ rest]

theorem State.enter_rest (s : State) (h : HoistId) {st : HoistState} (rest : st.takesVelocity = false) :
    s.enter h st = s.setHoist h ((s.hoist h).atState s.now s.timers st) := by
  unfold State.enter
  rw [State.recompute_rest (by rw [State.modHoist_hoist_self]; exact rest), State.modHoist_hoist_self]
  exact State.setHoist_setHoist ..

/-! ### Stops -/

theorem Hoist.stopped_eq {r : Hoist} (moving : r.state = .moving) (now : Nat) (t : TimerSettings) (reason : StopReason) :
    Hoist.atState (Hoist.modMove { r with extent := [] } fun m => { m with stopReason := some reason }) now t .stopping =
      r.stopped reason := by
  rw [Hoist.modMove_eq]
  unfold Hoist.atState Hoist.inState Hoist.stopped
  simp only [moving]
  rfl

theorem State.stopHoist_moving {s : State} {h : HoistId} (moving : (s.hoist h).state = .moving) (reason : StopReason) :
    s.stopHoist h reason = s.setHoist h ((s.hoist h).stopped reason) := by
  unfold State.stopHoist State.clearExtent
  rw [if_pos moving, State.modHoist_modHoist, State.enter_rest _ _ rfl, State.modHoist_hoist_self]
  simp only [State.modHoist_now, State.modHoist_timers]
  rw [Hoist.stopped_eq moving]
  exact State.setHoist_setHoist ..

theorem State.stopHoist_still {s : State} {h : HoistId} (still : (s.hoist h).state ≠ .moving) (reason : StopReason) :
    s.stopHoist h reason = s := if_neg still

/-- A hoist as a group stop leaves it (R59, R111). -/
def Hoist.stoppedIf (r : Hoist) (named : Prop) [Decidable named] : Hoist :=
  if named ∧ r.state = .moving then r.stopped .stopped else r

theorem State.stopHoist_eq (s : State) (h : HoistId) :
    s.stopHoist h .stopped = s.setHoist h ((s.hoist h).stoppedIf True) := by
  unfold Hoist.stoppedIf
  by_cases moving : (s.hoist h).state = .moving
  · rw [State.stopHoist_moving moving, if_pos ⟨trivial, moving⟩]
  · rw [State.stopHoist_still moving, if_neg fun x => moving x.2]
    unfold State.setHoist State.hoist
    rw [Vector.set_getElem_self]

/-- Orders and trip scopes that name several hoists stop each that MOVES (R59, R111). -/
theorem State.stopAll_eq (s : State) (hs : List HoistId) :
    s.stopAll hs = s.mapHoists fun h r => r.stoppedIf (h ∈ hs) := by
  induction hs generalizing s with
  | nil => exact (s.mapHoists_id fun h => if_neg fun x => absurd x.1 List.not_mem_nil).symm
  | cons x xs ih =>
    rw [State.stopAll, List.foldl_cons, ← State.stopAll, ih, State.stopHoist_eq]
    refine State.mapHoists_ext rfl fun h => ?_
    rw [State.setHoist_hoist]
    by_cases e : h = x
    · subst e
      unfold Hoist.stoppedIf
      by_cases moving : (s.hoist h).state = .moving
      · simp [moving, Hoist.stopped]
      · simp [moving]
    · simp [Hoist.stoppedIf, e]

/-! ### Zones that a run can take outward -/

/-- The zones outward from a run's end, from the nearest, numbered from 0. -/
def Run.ahead (run : Run) : Direction → Nat → Nat
  | .down, i => run.bottom + (i + 1)
  | .up, i => run.top - (i + 1)

theorem Follows.takeWhile_ahead {run : Run} {d : Direction} {zs : List Nat} (f : Follows run d zs) (p : Nat → Bool) :
    (zs.takeWhile p).length ≤ zs.length ∧ (∀ i, i < (zs.takeWhile p).length → p (run.ahead d i) = true) ∧
      ((zs.takeWhile p).length < zs.length → p (run.ahead d (zs.takeWhile p).length) = false) := by
  refine ⟨(List.takeWhile_prefix p).length_le, ?_⟩
  induction zs generalizing run with
  | nil => exact ⟨nofun, nofun⟩
  | cons z zs ih =>
    have first : run.ahead d 0 = z := by
      cases d with
      | down => exact f.1.symm
      | up => exact Nat.sub_eq_of_eq_add f.1.symm
    obtain ⟨run', rest, next⟩ : ∃ run' : Run, Follows run' d zs ∧ ∀ i, run'.ahead d i = run.ahead d (i + 1) := by
      cases d with
      | down =>
        refine ⟨_, f.2, fun i => ?_⟩
        show z + (i + 1) = run.bottom + (i + 1 + 1)
        rw [f.1]
        omega
      | up =>
        refine ⟨_, f.2, fun i => ?_⟩
        show z - (i + 1) = run.top - (i + 1 + 1)
        rw [← f.1]
        omega
    by_cases e : p z = true
    · rw [List.takeWhile_cons_of_pos e, List.length_cons, List.length_cons]
      obtain ⟨all, stop⟩ := ih rest
      refine ⟨fun i lt => ?_, fun lt => ?_⟩
      · cases i with
        | zero => rwa [first]
        | succ i => rw [← next]; exact all i (by omega)
      · rw [← next]
        exact stop (by omega)
    · rw [List.takeWhile_cons_of_neg e]
      exact ⟨nofun, fun _ => by rw [List.length_nil, first]; exact Bool.eq_false_iff.2 e⟩

theorem beyondZones_length (run : Run) (far : Nat) (d : Direction) :
    (beyondZones run far d).length = match d with | .down => far - run.bottom | .up => run.top - far := by
  cases d <;> simp [beyondZones]

/-! ### The zones a trip adds -/

theorem State.addAtTrip_still {s : State} {h : HoistId}
    (none_ : (s.hoist h).config = none ∨ (s.hoist h).run = none ∨ s.claimZones h = none) : s.addAtTrip h = s := by
  unfold State.addAtTrip
  dsimp only
  split
  · rename_i a b c
    rcases none_ with e | e | e
    · rw [e] at a; cases a
    · rw [e] at b; cases b
    · rw [e] at c; cases c
  · rfl

/-- A zone that a trip may add (R77). -/
def State.addable (s : State) (c : Compartment) (z : Nat) : Bool := s.isFree c z && !(s.comp c).committed.barred z

/-- How many zones a trip adds at one end. -/
def State.added (s : State) (c : Compartment) (run : Run) (far : Nat) (d : Direction) : Nat :=
  ((beyondZones run far d).takeWhile (s.addable c)).length

theorem State.addAtTrip_adds {s : State} {h : HoistId} {k : HoistConfig} {run x : Run}
    (config : (s.hoist h).config = some k) (held : (s.hoist h).run = some run) (zones : s.claimZones h = some x) :
    ∃ down up, (s.addAtTrip h).hoist h =
      { s.hoist h with
        run := some ⟨run.top - s.added k.compartment run x.top .up,
          run.bottom + s.added k.compartment run x.bottom .down⟩
        envDown := down
        envUp := up } := by
  unfold State.addAtTrip
  dsimp only
  split
  · rename_i k' run' x' ek er ex
    obtain rfl : k = k' := Option.some.inj (config.symm.trans ek)
    obtain rfl : run = run' := Option.some.inj (held.symm.trans er)
    obtain rfl : x = x' := Option.some.inj (zones.symm.trans ex)
    change ∃ down up, State.hoist (if s.added k.compartment run x.bottom .down = 0 ∧
      s.added k.compartment run x.top .up = 0 then s else State.recompute (s.setHoist h { s.hoist h with
        run := some ⟨run.top - s.added k.compartment run x.top .up,
          run.bottom + s.added k.compartment run x.bottom .down⟩ }) h) h = _
    split
    · rename_i zero
      rw [zero.1, zero.2]
      exact ⟨(s.hoist h).envDown, (s.hoist h).envUp, by rw [Nat.sub_zero, Nat.add_zero, ← er]⟩
    · exact ⟨_, _, by rw [State.hoist_recompute, if_pos rfl, State.setHoist_hoist_self]⟩
  · rename_i no
    exact absurd zones (no k run x config held)

theorem State.addAtTrip_other (s : State) {h y : HoistId} (ne : y ≠ h) : (s.addAtTrip h).hoist y = s.hoist y := by
  unfold State.addAtTrip
  dsimp only
  split
  · split
    · rfl
    · rw [State.hoist_recompute_other _ ne, State.setHoist_hoist_ne _ ne]
  · rfl

theorem State.addAtTrip_alone (s : State) (h : HoistId) : s.HoistsAlone (s.addAtTrip h) := by
  unfold State.addAtTrip
  dsimp only
  split
  · split <;> rfl
  · rfl

/-- A trip changes the run and the envelope alone, of its own hoist. -/
theorem State.addAtTrip_self (s : State) (h : HoistId) : ∃ run down up, (s.addAtTrip h).hoist h =
    { s.hoist h with run := run, envDown := down, envUp := up } := by
  unfold State.addAtTrip
  dsimp only
  split
  · split
    · exact ⟨_, _, _, rfl⟩
    · exact ⟨_, _, _, by rw [State.hoist_recompute, if_pos rfl, State.setHoist_hoist_self]⟩
  · exact ⟨_, _, _, rfl⟩

/-! ### Trips -/

/-- A hoist as a trip leaves it, before its zones are added (R53, R104, R109 to R112). -/
def Hoist.trippedFor (r : Hoist) (now : Nat) (cause : TripCause) : Hoist :=
  { r with
    state := .tripped
    tripCause := some cause
    overtaken := r.overtakenBy now cause
    tripLineOpen := true
    demandTimer := none
    engageTimer := none
    proofTimer := none
    stopAllowance := none
    extent := []
    move := r.move.map fun m => { m with isOpen := false }
    envDown := 0
    envUp := 0 }

/-- The part as a trip leaves it, before zones are added. -/
def State.trippedState (s : State) (h : HoistId) (cause : TripCause) : State :=
  State.clearExtent (State.closeMove (State.latch
    ((s.modHoist h fun r => { r with tripCause := some cause, overtaken := r.overtakenBy s.now cause }).enter h .tripped)
    .trip) h .tripped) h

theorem State.tripHoist_tripped {s : State} {h : HoistId} (e : (s.hoist h).state = .tripped) (cause : TripCause) :
    s.tripHoist h cause = s.latch .trip := if_pos e

theorem State.canTrip_iff {s : State} {h : HoistId} :
    s.canTrip h = true ↔ (s.hoist h).state.supervised = true ∧ (s.hoist h).state ≠ .tripped := by
  simp [State.canTrip]

theorem State.tripHoist_can {s : State} {h : HoistId} (can : s.canTrip h = true) (cause : TripCause) :
    s.tripHoist h cause = (s.trippedState h cause).addAtTrip h := by
  obtain ⟨held, fresh⟩ := State.canTrip_iff.1 can
  unfold State.tripHoist
  rw [if_neg fresh, if_pos held]
  rfl

theorem State.tripHoist_out {s : State} {h : HoistId} (out : (s.hoist h).state.supervised = false) (cause : TripCause) :
    s.tripHoist h cause = s := by
  unfold State.tripHoist
  rw [if_neg (by intro e; rw [e] at out; cases out), if_neg (by rw [out]; exact Bool.false_ne_true)]

theorem Hoist.closed_move {r : Hoist} (shut : r.moveOpen = false) :
    (r.move.map fun m => { m with isOpen := false }) = r.move := by
  unfold Hoist.moveOpen at shut
  cases e : r.move with
  | none => rfl
  | some m =>
    rw [e] at shut
    obtain ⟨⟩ := m
    simp only at shut
    subst shut
    rfl

theorem State.hoist_logMove (s : State) (h : HoistId) (o : MoveOutcome) (y : HoistId) :
    (s.logMove h o).hoist y = s.hoist y := by
  unfold State.logMove
  split
  · exact s.hoist_appendRecord _ y
  · rfl

theorem State.hoist_closeMove_self (s : State) (h : HoistId) (o : MoveOutcome) :
    (s.closeMove h o).hoist h =
      { s.hoist h with move := (s.hoist h).move.map fun m => { m with isOpen := false } } := by
  unfold State.closeMove
  split
  · rw [State.hoist_logMove, State.markClosed, State.modHoist_hoist_self, Hoist.modMove_eq]
  · rename_i shut
    rw [Hoist.closed_move (Bool.eq_false_iff.2 shut)]

theorem State.hoist_closeMove_other (s : State) {h y : HoistId} (ne : y ≠ h) (o : MoveOutcome) :
    (s.closeMove h o).hoist y = s.hoist y := by
  unfold State.closeMove
  split
  · rw [State.hoist_logMove, State.markClosed, State.modHoist_hoist_ne _ ne]
  · rfl

theorem State.hoist_trippedState_self (s : State) (h : HoistId) (cause : TripCause) :
    (s.trippedState h cause).hoist h = (s.hoist h).trippedFor s.now cause := by
  unfold State.trippedState State.clearExtent
  rw [State.modHoist_hoist_self, State.hoist_closeMove_self, State.hoist_latch, State.enter_rest _ _ rfl,
    State.setHoist_hoist_self, State.modHoist_hoist_self]
  rfl

theorem State.hoist_trippedState_other (s : State) {h y : HoistId} (ne : y ≠ h) (cause : TripCause) :
    (s.trippedState h cause).hoist y = s.hoist y := by
  unfold State.trippedState State.clearExtent
  rw [State.modHoist_hoist_ne _ ne, State.hoist_closeMove_other _ ne, State.hoist_latch, State.hoist_enter_other _ ne,
    State.modHoist_hoist_ne _ ne]

end Sys2Proof.Machine
end

section
/-! ## Claims through the sequencer, the trips and the brake proof -/

namespace Sys2Proof.Machine

/-- A change that keeps the claims, and the rank order with them. -/
def State.Keeps (s t : State) : Prop := s.Claimed → t.Claimed ∧ (s.Ranked → t.Ranked)

/-- What the claims rest on in a hoist is as it was. -/
structure Hoist.SameClaims (r r' : Hoist) : Prop where
  config : r'.config = r.config
  state : r'.state = r.state
  run : r'.run = r.run
  extent : r'.extent = r.extent
  moveOpen : r'.moveOpen = r.moveOpen
  moveDirection : r'.moveDirection = r.moveDirection

theorem Hoist.SameClaims.same (r : Hoist) : r.SameClaims r := ⟨rfl, rfl, rfl, rfl, rfl, rfl⟩

theorem Hoist.SameClaims.sameRun {r r' : Hoist} (a : r.SameClaims r') : r.SameRun r' :=
  ⟨a.config, a.run, .inl ⟨a.extent, a.moveDirection⟩⟩

theorem Hoist.Settled.of_same {r r' : Hoist} (a : r.SameClaims r') (x : r.Settled) : r'.Settled := by
  obtain ⟨outside, moves, pends⟩ := x
  exact ⟨by rwa [a.state, a.run], by rwa [a.state, a.moveOpen], by rwa [a.state, a.extent]⟩

/-- A change of the flags or the target of a move leaves the claims alone. -/
theorem Hoist.sameClaims_modMove (r : Hoist) {f : Move → Move} (isOpen : ∀ m, (f m).isOpen = m.isOpen)
    (direction : ∀ m, (f m).direction = m.direction) : r.SameClaims (r.modMove f) := by
  rw [Hoist.modMove_eq]
  refine ⟨rfl, rfl, rfl, rfl, ?_, ?_⟩
  · unfold Hoist.moveOpen
    cases r.move with
    | none => rfl
    | some m => exact isOpen m
  · unfold Hoist.moveDirection
    cases r.move with
    | none => rfl
    | some m => exact direction m

/-- A walk leaves a settled hoist settled: only a MOVING hoist has an extent to walk. -/
theorem Hoist.Settled.walked {r r' : Hoist} (w : r.Walked r') (x : r.Settled) : r'.Settled := by
  refine ⟨fun out => ?_, by rw [w.only.state, w.only.moveOpen]; exact x.moves, fun pends => ?_⟩
  · rw [w.only.state] at out
    have none_ : r.extent = [] := by
      by_contra some_
      rw [x.pends some_] at out
      cases out
    rw [(w.still none_).1, x.outside out]
  · rw [w.only.state]
    exact x.pends fun none_ => pends (w.still none_).2.1

/-- A hoist in a supervised state with its move closed and no extent. -/
theorem Hoist.Settled.of_still {r : Hoist} (held : r.state.supervised = true) (moving : r.state ≠ .moving)
    (stopping : r.state ≠ .stopping) (shut : r.moveOpen = false) (none_ : r.extent = []) : r.Settled := by
  refine ⟨fun out => ?_, ?_, fun some_ => absurd none_ some_⟩
  · rw [held] at out
    cases out
  · simp [shut, moving, stopping]

theorem Hoist.Settled.still {r : Hoist} (x : r.Settled) (moving : r.state ≠ .moving) (stopping : r.state ≠ .stopping) :
    r.moveOpen = false ∧ r.extent = [] :=
  ⟨Bool.eq_false_iff.2 fun on => (x.moves.1 on).elim moving stopping, by_contra fun some_ => moving (x.pends some_)⟩

namespace State.Keeps

theorem same (s : State) : s.Keeps s := fun x => ⟨x, id⟩

theorem andThen {s t u : State} (a : s.Keeps t) (b : t.Keeps u) : s.Keeps u := fun x =>
  have ⟨y, o⟩ := a x
  have ⟨z, p⟩ := b y
  ⟨z, fun r => p (o r)⟩

theorem fold {α : Type} (f : State → α → State) (each : ∀ s x, State.Keeps s (f s x)) (xs : List α) (s : State) :
    s.Keeps (xs.foldl f s) := by
  induction xs generalizing s with
  | nil => exact .same s
  | cons x xs ih => exact (each s x).andThen (ih _)

theorem quiet {s t : State} (same : ∀ h, (s.hoist h).SameClaims (t.hoist h)) : s.Keeps t := fun x =>
  ⟨⟨fun h => (x.settled h).of_same (same h), x.spaced.of_sameRun fun h => (same h).sameRun⟩,
    .of_sameRun fun h => (same h).sameRun⟩

theorem hoists {s t : State} (e : t.hoists = s.hoists) : s.Keeps t :=
  quiet fun h => by rw [State.hoist_of_hoists e]; exact .same _

theorem mod (s : State) (h : HoistId) (f : Hoist → Hoist) (same : (s.hoist h).SameClaims (f (s.hoist h))) :
    s.Keeps (s.modHoist h f) := quiet fun y => by
  rw [State.modHoist_hoist]
  split
  · rename_i e
    exact e ▸ same
  · exact .same _

/-- A change of one hoist that leaves its run in place. -/
theorem one {s t : State} {h : HoistId} (others : ∀ y, y ≠ h → t.hoist y = s.hoist y)
    (does : (s.hoist h).Settled → (s.hoist h).SameRun (t.hoist h) ∧ (t.hoist h).Settled) : s.Keeps t := by
  intro x
  obtain ⟨run, settled⟩ := does (x.settled h)
  have all : ∀ y, (s.hoist y).SameRun (t.hoist y) := by
    intro y
    by_cases ne : y = h
    · exact ne ▸ run
    · rw [others y ne]
      exact .same _
  refine ⟨⟨fun y => ?_, x.spaced.of_sameRun all⟩, .of_sameRun all⟩
  by_cases ne : y = h
  · exact ne ▸ settled
  · rw [others y ne]
    exact x.settled y

theorem latch (s : State) (c : Category) : s.Keeps (s.latch c) := hoists rfl

theorem recompute (s : State) (h : HoistId) : s.Keeps (s.recompute h) := mod s h _ ⟨rfl, rfl, rfl, rfl, rfl, rfl⟩

/-- A state without a move entered from another. -/
theorem enter {s : State} {h : HoistId} {st : HoistState} (from_moving : (s.hoist h).state ≠ .moving)
    (from_stopping : (s.hoist h).state ≠ .stopping) (held : st.supervised = true) (moving : st ≠ .moving)
    (stopping : st ≠ .stopping) : s.Keeps (s.enter h st) := by
  obtain ⟨down, up, e⟩ := s.hoist_enter_self h st
  refine one (fun y ne => s.hoist_enter_other ne st) fun x => ?_
  obtain ⟨shut, none_⟩ := x.still from_moving from_stopping
  rw [e]
  exact ⟨⟨rfl, rfl, .inl ⟨rfl, rfl⟩⟩, .of_still held moving stopping shut none_⟩

theorem appendRecord (s : State) (rec : MoveRecord) : s.Keeps (s.appendRecord rec) :=
  quiet fun h => by rw [State.hoist_appendRecord]; exact .same _

theorem logEnd (s : State) (h : HoistId) (o : Option MoveOutcome) : s.Keeps (s.logEnd h o) := by
  unfold State.logEnd State.logMove
  split
  · split
    · exact appendRecord _ _
    · exact same s
  · exact same s

/-! ### Runs that change -/

/-- A supervised hoist's run that loses zones, offered as they leave. -/
theorem setRun {s : State} {h : HoistId} {run : Option Run} {left : List Nat} (held : (s.hoist h).state.supervised = true)
    (sub : ∀ z, inRun run z = true → inRun (s.hoist h).run z = true)
    (lost : ∀ z, inRun (s.hoist h).run z = true → inRun run z = true ∨ z ∈ left)
    (fits : s.Claimed → ExtentFits run (s.hoist h).moveDirection (s.hoist h).extent) :
    s.Keeps (s.setRun h run left) := by
  intro x
  obtain ⟨spaced, rank⟩ := State.setRun_shrinks x.spaced sub lost (fits x)
  refine ⟨⟨fun y => .walked (s.setRun_walked h run left y) ?_, spaced⟩, rank⟩
  by_cases ne : y = h
  · subst ne
    obtain ⟨down, up, e⟩ := s.hoist_withRun_self y run
    obtain ⟨-, moves, pends⟩ := x.settled y
    rw [e]
    exact ⟨fun out => absurd (held.symm.trans out) nofun, moves, pends⟩
  · rw [State.hoist_withRun_other s ne]
    exact x.settled y

end State.Keeps

/-! ### What leaves a run at its trailing end -/

/-- The zones of a run from its trailing end, numbered from 0. -/
def Run.trailing (run : Run) : Direction → Nat → Nat
  | .down, i => run.top + i
  | .up, i => run.bottom - i

theorem trailingZones_eq {run : Run} (b : Block (some run)) (d : Direction) :
    trailingZones run d = (List.range (run.bottom + 1 - run.top)).map (run.trailing d) := by
  obtain ⟨low, high⟩ := b
  cases d with
  | down => exact List.range'_eq_map_range
  | up =>
    unfold trailingZones Run.zones
    rw [List.reverse_range', show run.top + (run.bottom + 1 - run.top) - 1 = run.bottom by omega]
    rfl

/-- A release behind frees the outermost zones at the trailing end, and never the last (R70, R71). -/
theorem behindZones_eq (t : ZoneTable) (floor guard top bottom : Nat) (d : Direction) {run : Run}
    (b : Block (some run)) :
    ∃ n, run.top + n ≤ run.bottom ∧ behindZones t floor guard top bottom d run = (List.range n).map (run.trailing d) := by
  have cut : (trailingZones run d).dropLast = (List.range (run.bottom - run.top)).map (run.trailing d) := by
    rw [trailingZones_eq b, ← List.map_dropLast, List.dropLast_eq_take, List.length_range, List.take_range,
      show min (run.bottom + 1 - run.top - 1) (run.bottom + 1 - run.top) = run.bottom - run.top by omega]
  unfold behindZones
  rw [cut, List.prefix_iff_eq_take.1 (List.takeWhile_prefix _), ← List.map_take, List.take_range]
  have high := b.2
  exact ⟨_, by omega, rfl⟩

/-- The zones at a run's trailing end leave it, the rest stays. -/
theorem inRun_shortenBehind {run : Run} (d : Direction) {n : Nat} (room : run.top + n ≤ run.bottom) (z : Nat) :
    (inRun (some (shortenBehind run n d)) z = true → inRun (some run) z = true) ∧
      (inRun (some run) z = true → inRun (some (shortenBehind run n d)) z = true ∨
        z ∈ (List.range n).map (run.trailing d)) := by
  simp only [inRun_some, List.mem_map, List.mem_range]
  cases d with
  | down =>
    dsimp only [shortenBehind, Run.trailing]
    refine ⟨fun m => by omega, fun m => ?_⟩
    by_cases gone : z < run.top + n
    · exact .inr ⟨z - run.top, by omega, by omega⟩
    · exact .inl (by omega)
  | up =>
    dsimp only [shortenBehind, Run.trailing]
    refine ⟨fun m => by omega, fun m => ?_⟩
    by_cases gone : run.bottom - n < z
    · exact .inr ⟨run.bottom - z, by omega, by omega⟩
    · exact .inl (by omega)

theorem ExtentFits.behind {run : Run} {d : Direction} {zs : List Nat} (f : ExtentFits (some run) d zs) {n : Nat}
    (room : run.top + n ≤ run.bottom) : ExtentFits (some (shortenBehind run n d)) d zs := by
  obtain ⟨⟨low, high⟩, follows, fits⟩ := f
  cases d with
  | down =>
    have zones := follows_down.1 follows
    exact ⟨⟨Nat.le_add_right_of_le low, room⟩, follows_down.2 zones, nofun⟩
  | up =>
    have zones := follows_up.1 follows
    exact ⟨⟨low, Nat.le_sub_of_add_le room⟩, follows_up.2 zones, fits⟩

theorem mem_leavingZones {old new : Option Run} {z : Nat} (held : inRun old z = true) (gone : inRun new z = false) :
    z ∈ leavingZones old new := by
  cases old with
  | none => cases held
  | some o =>
    have inside : z ∈ o.zones := mem_runZones (run := some o).2 held
    unfold leavingZones
    rw [List.mem_append, List.mem_reverse, List.mem_filter, List.mem_filter, gone]
    cases e : leavingZones.below new z with
    | true => exact .inl ⟨inside, rfl⟩
    | false => exact .inr ⟨inside, rfl⟩

theorem inRun_meetRun {run keep : Run} {z : Nat} :
    inRun (meetRun run keep) z = true ↔ inRun (some run) z = true ∧ keep.top ≤ z ∧ z ≤ keep.bottom := by
  unfold meetRun
  split
  · simp only [inRun_some]
    omega
  · rw [inRun_none, inRun_some]
    refine ⟨nofun, fun m => absurd ?_ ‹_›⟩
    omega

theorem meetRun_block {run keep : Run} (b : Block (some run)) : Block (meetRun run keep) := by
  unfold meetRun
  split
  · exact ⟨le_max_of_le_left b.1, ‹_›⟩
  · trivial

/-! ### Trims -/

theorem State.trimTo_alone (s : State) (h : HoistId) (keep : Option Run) : s.HoistsAlone (s.trimTo h keep) := by
  unfold State.trimTo
  dsimp only
  split
  · split
    · rfl
    · exact s.setRun_alone _ _ _
  · rfl

theorem State.trimTo_only (s : State) (h : HoistId) (keep : Option Run) (y : HoistId) :
    (s.hoist y).OnlyClaims ((s.trimTo h keep).hoist y) := by
  unfold State.trimTo
  dsimp only
  split
  · split
    · exact ⟨rfl, .inl rfl⟩
    · exact s.setRun_only _ _ _ y
  · exact ⟨rfl, .inl rfl⟩

theorem State.trimTo_other (s : State) {h y : HoistId} (ne : y ≠ h) (keep : Option Run) :
    (s.hoist y).Walked ((s.trimTo h keep).hoist y) := by
  unfold State.trimTo
  dsimp only
  split
  · split
    · exact .same _
    · exact s.setRun_other _ _ _ ne
  · exact .same _

/-- A trim of a hoist with no extent leaves the zones of its run that are kept. -/
theorem State.trimTo_self {s : State} {h : HoistId} (none_ : (s.hoist h).extent = []) (keep : Option Run) :
    ((s.trimTo h keep).hoist h).extent = [] ∧ ((s.trimTo h keep).hoist h).move = (s.hoist h).move ∧
      ∀ k, keep = some k → ∀ z, inRun ((s.trimTo h keep).hoist h).run z = true ↔
        inRun (s.hoist h).run z = true ∧ k.top ≤ z ∧ z ≤ k.bottom := by
  unfold State.trimTo
  dsimp only
  split
  · rename_i run k held
    rw [held]
    split
    · rename_i same
      refine ⟨none_, rfl, ?_⟩
      rintro _ ⟨⟩ z
      rw [← inRun_meetRun, same, held]
    · obtain ⟨set, extent, move⟩ := State.setRun_self (meetRun run k) (leavingZones (some run) (meetRun run k)) none_
      refine ⟨extent, move, ?_⟩
      rintro _ ⟨⟩ z
      rw [set, inRun_meetRun]
  · rename_i no
    refine ⟨none_, rfl, ?_⟩
    rintro k rfl z
    cases held : (s.hoist h).run with
    | none => simp [inRun_none]
    | some run => exact absurd rfl (no run k held)

theorem State.trimTo_spaced {s : State} (x : s.Spaced NoWait) {h : HoistId} (none_ : (s.hoist h).extent = [])
    (keep : Option Run) : (s.trimTo h keep).Spaced NoWait ∧ (s.Ranked → (s.trimTo h keep).Ranked) := by
  unfold State.trimTo
  dsimp only
  split
  · rename_i run k held
    split
    · exact ⟨x, id⟩
    · have block := x.blocks h
      rw [held] at block
      refine State.setRun_shrinks x (fun z m => ?_) (fun z m => ?_) ?_
      · rw [held]
        exact (inRun_meetRun.1 m).1
      · rw [held] at m
        cases kept : inRun (meetRun run k) z with
        | true => exact .inl rfl
        | false => exact .inr (mem_leavingZones m kept)
      · rw [none_, extentFits_nil]
        exact meetRun_block block
  · exact ⟨x, id⟩

/-! ### The sequencer -/

namespace State.Keeps

theorem releaseBehind (s : State) (h : HoistId) : s.Keeps (s.releaseBehind h) := by
  unfold State.releaseBehind
  dsimp only
  split
  · rename_i moving
    have held : (s.hoist h).state.supervised = true := by rcases moving with e | e <;> rw [e] <;> rfl
    split
    · rename_i run e
      split
      · exact same s
      · intro x
        have fits := x.spaced.extents h
        rw [e] at fits
        obtain ⟨n, room, zones⟩ := behindZones_eq (s.tableOf (s.hoist h)) s.shaft.floor s.shaft.guard
          (s.hoist h).spanTop (s.hoist h).depth (s.hoist h).moveDirection fits.block
        rw [zones, List.length_map, List.length_range]
        refine setRun held (fun z m => ?_) (fun z m => ?_) (fun _ => fits.behind room) x
        · rw [e]
          exact (inRun_shortenBehind _ room z).1 m
        · rw [e] at m
          exact (inRun_shortenBehind _ room z).2 m
    · exact same s
  · exact same s

/-- A trim between two changes of a hoist's own state (R75, R76). -/
theorem trimmed {s t : State} {h : HoistId} {st : HoistState} (keep : Option Run)
    (others : ∀ y, y ≠ h → t.hoist y = s.hoist y) (run : (s.hoist h).SameRun (t.hoist h))
    (none_ : (s.hoist h).Settled → (t.hoist h).extent = [])
    (shut : (s.hoist h).Settled → (t.hoist h).moveOpen = false) (held : st.supervised = true) (moving : st ≠ .moving)
    (stopping : st ≠ .stopping) : s.Keeps ((t.trimTo h keep).enter h st) := by
  have all : ∀ y, (s.hoist y).SameRun (t.hoist y) := by
    intro y
    by_cases ne : y = h
    · exact ne ▸ run
    · rw [others y ne]
      exact .same _
  intro x
  have gone := none_ (x.settled h)
  obtain ⟨spaced, rank⟩ := State.trimTo_spaced (x.spaced.of_sameRun all) gone keep
  obtain ⟨down, up, e⟩ := (t.trimTo h keep).hoist_enter_self h st
  have entered : ∀ y, ((t.trimTo h keep).hoist y).SameRun (((t.trimTo h keep).enter h st).hoist y) := by
    intro y
    by_cases ne : y = h
    · subst ne
      rw [e]
      exact ⟨rfl, rfl, .inl ⟨rfl, rfl⟩⟩
    · rw [State.hoist_enter_other _ ne]
      exact .same _
  refine ⟨⟨fun y => ?_, spaced.of_sameRun entered⟩, fun o => (rank (o.of_sameRun all)).of_sameRun entered⟩
  by_cases ne : y = h
  · subst ne
    obtain ⟨extent, move, -⟩ := State.trimTo_self gone keep
    have shut := shut (x.settled y)
    rw [e]
    refine .of_still held moving stopping ?_ extent
    unfold Hoist.moveOpen at shut ⊢
    dsimp only [Hoist.inState]
    rwa [move]
  · rw [State.hoist_enter_other _ ne]
    have walked := t.trimTo_other ne keep
    rw [others y ne] at walked
    exact (x.settled y).walked walked

theorem endMove (s : State) (h : HoistId) {st : HoistState} (held : st.supervised = true) (moving : st ≠ .moving)
    (stopping : st ≠ .stopping) : s.Keeps (s.endMove h st) := by
  unfold State.endMove State.trimAtMoveEnd
  dsimp only
  have self : ((s.markClosed h).clearExtent h).hoist h =
      { s.hoist h with extent := [], move := (s.hoist h).move.map fun m => { m with isOpen := false } } := by
    unfold State.clearExtent State.markClosed
    rw [State.modHoist_hoist_self, State.modHoist_hoist_self, Hoist.modMove_eq]
  refine trimmed _ (fun y ne => ?_) ?_ (fun _ => by rw [self]) (fun _ => ?_) held moving stopping
  · unfold State.clearExtent State.markClosed
    rw [State.modHoist_hoist_ne _ ne, State.modHoist_hoist_ne _ ne]
  · rw [self]
    exact ⟨rfl, rfl, .inr rfl⟩
  · rw [self]
    unfold Hoist.moveOpen
    cases (s.hoist h).move <;> rfl

theorem resolveState (s : State) (h : HoistId) : s.Keeps (s.resolveState h) := by
  have after : ∀ r : Hoist, r.afterArrival = .ready ∨ r.afterArrival = .parking := by
    intro r
    unfold Hoist.afterArrival
    split
    · split
      · exact .inr rfl
      · exact .inl rfl
    · exact .inl rfl
  unfold State.resolveState
  dsimp only
  split
  · rename_i e
    split
    · exact enter (by rw [e]; decide) (by rw [e]; decide) rfl (by decide) (by decide)
    · exact same s
  · split
    · rcases after (s.hoist h) with e | e <;> rw [e] <;> exact endMove s h rfl (by decide) (by decide)
    · exact same s
  · split
    · exact endMove s h rfl (by decide) (by decide)
    · exact same s
  · rename_i e
    split
    · unfold State.trimToSpan
      exact trimmed (t := s) _ (fun _ _ => rfl) (.same _) (fun x => (x.still (by rw [e]; decide) (by rw [e]; decide)).2)
        (fun x => (x.still (by rw [e]; decide) (by rw [e]; decide)).1) rfl (by decide) (by decide)
    · exact same s
  all_goals exact same s

theorem stopHoist (s : State) (h : HoistId) (reason : StopReason) : s.Keeps (s.stopHoist h reason) := by
  by_cases moving : (s.hoist h).state = .moving
  · rw [State.stopHoist_moving moving]
    refine one (h := h) (fun y ne => s.setHoist_hoist_ne ne _) fun x => ?_
    have isOpen := x.moves.2 (.inl moving)
    rw [State.setHoist_hoist_self]
    refine ⟨⟨rfl, rfl, .inr rfl⟩, nofun, ⟨fun _ => .inr rfl, fun _ => ?_⟩, fun some_ => absurd rfl some_⟩
    unfold Hoist.moveOpen at isOpen ⊢
    dsimp only [Hoist.stopped]
    cases e : (s.hoist h).move with
    | none => rw [e] at isOpen; cases isOpen
    | some m => rw [e] at isOpen; exact isOpen
  · rw [State.stopHoist_still moving]
    exact same s

theorem stopAll (s : State) (hs : List HoistId) : s.Keeps (s.stopAll hs) :=
  fold _ (fun s h => stopHoist s h .stopped) hs s

end State.Keeps

/-! ### Trips -/

theorem State.added_spec (s : State) (c : Compartment) (run : Run) (far : Nat) (d : Direction) :
    (s.added c run far d ≤ match d with | .down => far - run.bottom | .up => run.top - far) ∧
      (∀ i, i < s.added c run far d → s.addable c (run.ahead d i) = true) ∧
      ((s.added c run far d < match d with | .down => far - run.bottom | .up => run.top - far) →
        s.addable c (run.ahead d (s.added c run far d)) = false) := by
  have := (beyondZones_follows run (far := far) d).takeWhile_ahead (s.addable c)
  rwa [beyondZones_length] at this

theorem State.claimZones_range {s : State} {h : HoistId} {x : Run} (e : s.claimZones h = some x) : 1 ≤ x.top := by
  unfold State.claimZones at e
  split at e
  · exact (ZoneTable.overlap_range e).1
  · cases e

/-- A trip adds free zones at the ends of the run (R77). -/
theorem State.addAtTrip_spreads {s : State} {p : HoistId → Compartment → Nat → Prop} (x : s.Spaced p) (h : HoistId) :
    s.Spreads (s.addAtTrip h) h ∧ Block ((s.addAtTrip h).hoist h).run := by
  obtain ⟨run', down, up, self⟩ := s.addAtTrip_self h
  by_cases still : (s.hoist h).config = none ∨ (s.hoist h).run = none ∨ s.claimZones h = none
  · rw [State.addAtTrip_still still]
    exact ⟨⟨fun _ _ => rfl, rfl, fun _ => id, fun _ => .inl, fun z m => ⟨z, m⟩⟩, x.blocks h⟩
  · simp only [not_or, ← ne_eq, Option.ne_none_iff_exists'] at still
    obtain ⟨⟨k, config⟩, ⟨run, held⟩, zones, e⟩ := still
    obtain ⟨down, up, adds⟩ := State.addAtTrip_adds config held e
    have block := x.blocks h
    rw [held] at block
    obtain ⟨low, high⟩ := block
    obtain ⟨roomUp, freeUp, -⟩ := s.added_spec k.compartment run zones.top .up
    obtain ⟨-, freeDown, -⟩ := s.added_spec k.compartment run zones.bottom .down
    have first := State.claimZones_range e
    have free : ∀ z, s.addable k.compartment z = true → ∀ c, (s.hoist h).inCompartment c = true →
        s.isFree c z = true := by
      intro z ok c inside
      obtain ⟨k', e', rfl⟩ := Hoist.inCompartment_iff.1 inside
      obtain rfl : k = k' := Option.some.inj (config.symm.trans e')
      exact (Bool.and_eq_true_iff.1 ok).1
    rw [adds]
    dsimp only at roomUp
    refine ⟨⟨fun y ne => s.addAtTrip_other ne, by rw [adds], fun z m => ?_, fun z m => ?_, fun z _ => ?_⟩, ?_⟩
    · rw [adds]
      rw [held, inRun_some] at m
      exact inRun_some.2 ⟨by dsimp only; omega, by dsimp only; omega⟩
    · rw [adds] at m
      rw [inRun_some] at m
      dsimp only at m
      rw [held, inRun_some]
      by_cases above_ : z < run.top
      · refine .inr (free z ?_)
        have := freeUp (run.top - z - 1) (by omega)
        rwa [show run.ahead .up (run.top - z - 1) = z by unfold Run.ahead; dsimp only; omega] at this
      · by_cases below : run.bottom < z
        · refine .inr (free z ?_)
          have := freeDown (z - run.bottom - 1) (by omega)
          rwa [show run.ahead .down (z - run.bottom - 1) = z by unfold Run.ahead; dsimp only; omega] at this
        · exact .inl (by omega)
    · exact ⟨run.top, by rw [held]; exact inRun_some.2 ⟨le_rfl, high⟩⟩
    · exact ⟨by dsimp only; omega, by dsimp only; omega⟩

namespace State.Keeps

theorem addAtTrip {s : State} {h : HoistId} (none_ : (s.hoist h).extent = [])
    (held : (s.hoist h).state.supervised = true) : s.Keeps (s.addAtTrip h) := by
  intro x
  obtain ⟨g, block⟩ := State.addAtTrip_spreads x.spaced h
  obtain ⟨run, down, up, self⟩ := s.addAtTrip_self h
  refine ⟨⟨fun y => ?_, fun y => ?_, g.shared x.spaced, fun y k z config head free => ?_⟩, g.ranked x.spaced⟩
  · by_cases ne : y = h
    · subst ne
      obtain ⟨-, moves, pends⟩ := x.settled y
      rw [self]
      exact ⟨fun out => absurd (held.symm.trans out) nofun, moves, pends⟩
    · rw [g.others y ne]
      exact x.settled y
  · by_cases ne : y = h
    · subst ne
      rw [show ((s.addAtTrip y).hoist y).extent = [] by rw [self]; exact none_]
      exact extentFits_nil.2 block
    · rw [g.others y ne]
      exact x.spaced.extents y
  · have free' := g.isFree free
    by_cases ne : y = h
    · subst ne
      rw [self] at head
      dsimp only at head
      rw [none_] at head
      cases head
    · rw [g.others y ne] at config head
      exact x.spaced.awaited y k z config head free'

theorem trippedState (s : State) (h : HoistId) (cause : TripCause) : s.Keeps (s.trippedState h cause) := by
  refine one (h := h) (fun y ne => s.hoist_trippedState_other ne cause) fun _ => ?_
  rw [State.hoist_trippedState_self]
  refine ⟨⟨rfl, rfl, .inr rfl⟩, .of_still rfl nofun nofun ?_ rfl⟩
  unfold Hoist.moveOpen Hoist.trippedFor
  dsimp only
  cases (s.hoist h).move <;> rfl

theorem tripHoist (s : State) (h : HoistId) (cause : TripCause) : s.Keeps (s.tripHoist h cause) := by
  unfold State.tripHoist
  split
  · exact latch s _
  · split
    · refine (trippedState s h cause).andThen (addAtTrip ?_ ?_)
      · rw [State.hoist_trippedState_self]
        rfl
      · rw [State.hoist_trippedState_self]
        rfl
    · exact same s

theorem applyTripScope (s : State) (h : HoistId) : s.Keeps (s.applyTripScope h) := by
  unfold State.applyTripScope
  split
  · split
    · exact stopAll s _
    · exact same s
  · exact same s

theorem trip (s : State) (h : HoistId) (cause : TripCause) : s.Keeps (s.trip h cause) := by
  unfold State.trip
  dsimp only
  split
  · exact (tripHoist s h cause).andThen (applyTripScope _ h)
  · exact tripHoist s h cause

theorem actOnTests (s : State) (h : HoistId) (elapsed : Nat) : s.Keeps (s.actOnTests h elapsed) := by
  unfold State.actOnTests
  dsimp only
  have lowered : s.Keeps (s.lowerAllowance h elapsed) :=
    mod s h _ (by split <;> exact ⟨rfl, rfl, rfl, rfl, rfl, rfl⟩)
  have first : s.Keeps (match s.reportCauses h elapsed with
      | c :: _ => (s.lowerAllowance h elapsed).tripHoist h c
      | [] => s.lowerAllowance h elapsed) := by
    split
    · exact lowered.andThen (tripHoist _ _ _)
    · exact lowered
  have partners := first.andThen (fold (fun s x => s.tripHoist x .separation) (fun s x => tripHoist s x .separation)
    (s.tooCloseTo h) _)
  split
  · exact partners.andThen (applyTripScope _ h)
  · exact partners

/-! ### Brake proof -/

theorem degrade (s : State) (h : HoistId) : s.Keeps (s.degrade h) :=
  (mod s h _ (Hoist.sameClaims_modMove _ (f := fun m => { m with degraded := true }) (fun _ => rfl) fun _ => rfl)).andThen
    (latch _ _)

theorem evaluateProof (s : State) (h : HoistId) : s.Keeps (s.evaluateProof h) := by
  unfold State.evaluateProof
  dsimp only
  have first : s.Keeps ((s.modHoist h fun r => { r with proofStatus := s.evaluatedStatus (s.hoist h) }).recompute h) :=
    (mod s h _ ⟨rfl, rfl, rfl, rfl, rfl, rfl⟩).andThen (recompute _ h)
  split
  · exact same s
  · split
    · exact first.andThen (degrade _ h)
    · exact first

theorem evaluateAll (s : State) : s.Keeps s.evaluateAll := fold _ (fun s h => evaluateProof s h) _ s

theorem takeProofResult (s : State) (h : HoistId) : s.Keeps (s.takeProofResult h) := by
  unfold State.takeProofResult
  dsimp only
  split
  · rename_i e
    split
    · split
      · exact same s
      · exact (enter (by rw [e]; decide) (by rw [e]; decide) rfl (by decide) (by decide)).andThen
          (mod _ h _ ⟨rfl, rfl, rfl, rfl, rfl, rfl⟩)
      · exact trip s _ _
    · exact same s
  · exact same s

end State.Keeps

end Sys2Proof.Machine
end

section
/-! ## Claims through the orders of hoists and compartments -/

namespace Sys2Proof.Machine

/-! ### MOVE -/

/-- A hoist's extent formed for a target. -/
def State.formed (s : State) (h : HoistId) (target : Nat) : List Nat :=
  s.extentFor (s.tableOf (s.hoist h)) (s.hoist h).run (s.hoist h).height target (s.hoist h).moveDirection

/-- The state with the extent formed and not yet walked (R64). -/
def State.withExtent (s : State) (h : HoistId) (zs : List Nat) : State := s.modHoist h fun r => { r with extent := zs }

theorem State.claim_eq (s : State) (h : HoistId) (target : Nat) :
    s.claim h target = (s.withExtent h (s.formed h target)).walk h := rfl

theorem State.hoist_withExtent_self (s : State) (h : HoistId) (zs : List Nat) :
    (s.withExtent h zs).hoist h = { s.hoist h with extent := zs } := s.modHoist_hoist_self h _

theorem State.hoist_withExtent_other (s : State) {h y : HoistId} (ne : y ≠ h) (zs : List Nat) :
    (s.withExtent h zs).hoist y = s.hoist y := s.modHoist_hoist_ne ne _

theorem State.withExtent_free (s : State) (h : HoistId) (zs : List Nat) (c : Compartment) (z : Nat) :
    (s.withExtent h zs).isFree c z = s.isFree c z := by
  refine State.isFree_congr (fun y => ?_) (fun y => ?_) c z <;>
    by_cases ne : y = h
  · rw [ne, State.hoist_withExtent_self]
  · rw [State.hoist_withExtent_other s ne]
  · rw [ne, State.hoist_withExtent_self]
  · rw [State.hoist_withExtent_other s ne]

/-- An extent that carries the run on may be pending once it is walked. -/
theorem State.withExtent_spaced {s : State} (x : s.Spaced NoWait) {h : HoistId} {zs : List Nat}
    (fits : ExtentFits (s.hoist h).run (s.hoist h).moveDirection zs) :
    (s.withExtent h zs).Spaced (fun y _ _ => y = h) ∧ (s.Ranked → (s.withExtent h zs).Ranked) := by
  have config : ∀ y, ((s.withExtent h zs).hoist y).config = (s.hoist y).config := by
    intro y
    by_cases ne : y = h
    · rw [ne, State.hoist_withExtent_self]
    · rw [State.hoist_withExtent_other s ne]
  have run : ∀ y, ((s.withExtent h zs).hoist y).run = (s.hoist y).run := by
    intro y
    by_cases ne : y = h
    · rw [ne, State.hoist_withExtent_self]
    · rw [State.hoist_withExtent_other s ne]
  refine ⟨⟨fun y => ?_, fun a b c z ne ha hb m => ?_, fun y k z e head free => ?_⟩, fun o => o.of_runs config fun y z m => ?_⟩
  · by_cases ne : y = h
    · subst ne
      rw [State.hoist_withExtent_self]
      exact fits
    · rw [State.hoist_withExtent_other s ne]
      exact x.extents y
  · rw [Hoist.inCompartment_config (config _)] at ha hb
    rw [run] at m ⊢
    exact x.shared a b c z ne ha hb m
  · by_contra ne
    rw [State.withExtent_free] at free
    rw [State.hoist_withExtent_other s ne] at e head
    exact x.awaited y k z e head free
  · rwa [run] at m

namespace State.Keeps

theorem claim {s : State} {h : HoistId} (moving : (s.hoist h).state = .moving) (target : Nat) :
    s.Keeps (s.claim h target) := by
  intro x
  rw [State.claim_eq]
  have fits : ExtentFits (s.hoist h).run (s.hoist h).moveDirection (s.formed h target) :=
    s.extentFor_fits _ _ _ _ (x.spaced.blocks h)
  obtain ⟨spaced, rank⟩ := State.withExtent_spaced x.spaced fits
  obtain ⟨walked, rank'⟩ := State.walk_spaced spaced h
  refine ⟨⟨fun y => .walked (State.walk_walked _ h y) ?_, walked.excuse fun _ _ _ _ m => m.1 m.2⟩,
    fun o => rank' (rank o)⟩
  by_cases ne : y = h
  · subst ne
    obtain ⟨outside, moves, -⟩ := x.settled y
    rw [State.hoist_withExtent_self]
    exact ⟨outside, moves, fun _ => moving⟩
  · rw [State.hoist_withExtent_other s ne]
    exact x.settled y

theorem degradeIfDue (s : State) (h : HoistId) : s.Keeps (s.degradeIfDue h) := by
  unfold State.degradeIfDue
  split
  · exact degrade s h
  · exact same s

theorem startMove {s : State} {h : HoistId} (ready : (s.hoist h).state = .ready) (target : Nat) (p : Bool) :
    s.Keeps (s.startMove h target p) := by
  unfold State.startMove
  dsimp only
  obtain ⟨down, up, e⟩ := (s.modHoist h fun r => r.openMove s.now target p).hoist_enter_self h .moving
  rw [State.modHoist_hoist_self] at e
  have opened : s.Keeps ((s.modHoist h fun r => r.openMove s.now target p).enter h .moving) := by
    refine one (h := h) (fun y ne => ?_) fun x => ?_
    · rw [State.hoist_enter_other _ ne, State.modHoist_hoist_ne _ ne]
    · obtain ⟨-, none_⟩ := x.still (by rw [ready]; decide) (by rw [ready]; decide)
      rw [e]
      exact ⟨⟨rfl, rfl, .inr none_⟩, nofun, ⟨fun _ => .inl rfl, fun _ => rfl⟩, fun _ => rfl⟩
  exact ((opened.andThen (claim (by rw [e]; rfl) target)).andThen (degradeIfDue _ h)).andThen (recompute _ h)

end State.Keeps

/-- A retarget leaves the run some of its zones (R74). -/
theorem State.retargetRun_sub (s : State) {r : Hoist} (b : Block r.run) (target : Nat) (d : Direction) :
    Block (s.retargetRun r target d) ∧
      ∀ z, inRun (s.retargetRun r target d) z = true → inRun r.run z = true := by
  unfold State.retargetRun
  dsimp only
  split
  · rename_i run z held _
    rw [held] at b ⊢
    obtain ⟨low, high⟩ := b
    cases d with
    | down => exact ⟨⟨low, le_max_left _ _⟩, fun z m => by simp only [inRun_some] at m ⊢; omega⟩
    | up =>
      exact ⟨⟨show 1 ≤ min run.bottom (max run.top _) by omega, min_le_left _ _⟩,
        fun z m => by simp only [inRun_some] at m ⊢; omega⟩
  · exact ⟨b, fun _ => id⟩

theorem mem_retargetLeaving {old new : Option Run} {d : Direction} {z : Nat} (held : inRun old z = true)
    (gone : inRun new z = false) : z ∈ retargetLeaving old new d := by
  cases d <;> simp [retargetLeaving, mem_runZones, held, gone]

theorem State.hoist_clearExtent_self (s : State) (h : HoistId) :
    (s.clearExtent h).hoist h = { s.hoist h with extent := [] } := s.modHoist_hoist_self h _

theorem State.hoist_clearExtent_other (s : State) {h y : HoistId} (ne : y ≠ h) :
    (s.clearExtent h).hoist y = s.hoist y := s.modHoist_hoist_ne ne _

namespace State.Keeps

theorem clearExtent (s : State) (h : HoistId) : s.Keeps (s.clearExtent h) := by
  refine one (h := h) (fun y ne => s.hoist_clearExtent_other ne) fun x => ?_
  rw [State.hoist_clearExtent_self]
  exact ⟨⟨rfl, rfl, .inr rfl⟩, x.outside, x.moves, fun some_ => absurd rfl some_⟩

theorem retarget {s : State} {h : HoistId} (moving : (s.hoist h).state = .moving) (target : Nat) (p : Bool) :
    s.Keeps (s.retarget h target p) := by
  unfold State.retarget
  dsimp only
  have self := s.hoist_clearExtent_self h
  refine (((((clearExtent s h).andThen ?_).andThen (mod _ h _ ?_)).andThen (claim ?_ target)).andThen
    (degradeIfDue _ h)).andThen (recompute _ h)
  · intro x
    have block := x.spaced.blocks h
    rw [self] at block
    obtain ⟨kept, sub⟩ := s.retargetRun_sub block target (s.hoist h).moveDirection
    refine setRun (by rw [self]; dsimp only; rw [moving]; rfl) (fun z m => ?_) (fun z m => ?_) (fun _ => ?_) x
    · rw [self]
      exact sub z m
    · rw [self] at m
      cases e : inRun (s.retargetRun (s.hoist h) target (s.hoist h).moveDirection) z with
      | true => exact .inl rfl
      | false => exact .inr (mem_retargetLeaving m e)
    · rw [self]
      exact extentFits_nil.2 kept
  · exact Hoist.sameClaims_modMove _ (f := fun m => { m with target := target, parkOnArrival := p }) (fun _ => rfl)
      fun _ => rfl
  · rw [State.modHoist_hoist_self]
    unfold Hoist.newTarget
    rw [Hoist.modMove_eq]
    refine (State.setRun_only _ h _ _ h).state.trans ?_
    rw [self]
    exact moving

/-- A check that refuses an order, and what comes of the order where it passes. -/
theorem check {s : State} {p : Prop} [Decidable p] {x y : State × Reply} (fails : s.Keeps x.1)
    (passes : ¬p → s.Keeps y.1) : s.Keeps (if p then x else y).1 := by
  split
  · exact fails
  · exact passes ‹_›

theorem move (s : State) (b : Byte) (target : Nat) (p : Bool) : s.Keeps (s.move b target p).1 := by
  unfold State.move
  split
  · exact same s
  · refine check (same s) fun ready => check (same s) fun _ => check (same s) fun _ => check (same s) fun _ =>
      check (same s) fun _ => ?_
    split
    · exact same s
    · split
      · exact retarget ‹_› _ _
      · rename_i still
        exact startMove (by_contra fun n => ready ⟨n, still⟩) _ _

/-! ### ENGAGE, PARK, ABORT and PROVE -/

theorem engage (s : State) (b : Byte) : s.Keeps (s.engage b).1 := by
  unfold State.engage
  split
  · exact same s
  · split
    · exact same s
    · rename_i parked
      rw [not_not] at parked
      split
      · exact same s
      · split
        · exact same s
        · exact enter (by rw [parked]; decide) (by rw [parked]; decide) rfl (by decide) (by decide)

theorem park (s : State) (b : Byte) : s.Keeps (s.park b).1 := by
  unfold State.park
  split
  · exact same s
  · split
    · rename_i free
      exact enter (by rcases free with e | e <;> rw [e] <;> decide) (by rcases free with e | e <;> rw [e] <;> decide) rfl
        (by decide) (by decide)
    · exact same s

theorem abort (s : State) (b : Byte) : s.Keeps (s.abort b).1 := by
  unfold State.abort
  split
  · exact same s
  · split
    · exact stopHoist s _ _
    · split <;> exact same s

theorem prove (s : State) (b : Byte) : s.Keeps (s.prove b).1 := by
  unfold State.prove
  split
  · exact same s
  · split
    · exact same s
    · rename_i parked
      rw [not_not] at parked
      split
      · exact same s
      · exact (enter (by rw [parked]; decide) (by rw [parked]; decide) rfl (by decide) (by decide)).andThen (hoists rfl)

end State.Keeps

/-! ### RESET_HOIST -/

/-- The zones of a span are clear for a hoist: none is BARRED or in another's run, and they stand in rank order (R54, R62). -/
structure State.SpanClear (s : State) (h : HoistId) (k : HoistConfig) (span : Option Run) : Prop where
  zones : ∀ z ∈ runZones span, ((s.comp k.compartment).committed.entry z).kind ≠ .barred ∧
    ∀ x, s.holder k.compartment z = some x → x = h
  order : ∀ x, (s.hoist x).inCompartment k.compartment = true →
    (k.rank < (s.hoist x).rank → above span (s.hoist x).run) ∧ ((s.hoist x).rank < k.rank → above (s.hoist x).run span)

theorem State.outOfOrder_iff {s : State} {h : HoistId} {k : HoistConfig} (config : (s.hoist h).config = some k)
    {run : Run} : s.outOfOrder h k.compartment run = false ↔ ∀ x, (s.hoist x).inCompartment k.compartment = true →
      (k.rank < (s.hoist x).rank → above (some run) (s.hoist x).run) ∧
        ((s.hoist x).rank < k.rank → above (s.hoist x).run (some run)) := by
  have rank : (s.hoist h).rank = k.rank := by unfold Hoist.rank; rw [config]
  unfold State.outOfOrder
  rw [List.any_eq_false]
  refine forall_congr' fun x => ?_
  rw [State.mem_hoistsOf, rank]
  refine imp_congr_right fun _ => ?_
  by_cases e : x = h
  · subst e
    cases (s.hoist x).run <;> simp [rank]
  · cases (s.hoist x).run with
    | none => simp [above]
    | some y => simp [e, above]

/-- A reset is refused exactly where the span is not clear (R54). -/
theorem State.spanBlocked_iff {s : State} {h : HoistId} {k : HoistConfig} (config : (s.hoist h).config = some k) :
    s.spanBlocked h = false ↔ s.SpanClear h k (s.spanZones (s.comp k.compartment).committed (s.hoist h)) := by
  have blocked : s.spanBlocked h =
      match s.spanZones (s.comp k.compartment).committed (s.hoist h) with
      | some run => s.outOfOrder h k.compartment run || run.zones.any fun z =>
          (s.comp k.compartment).committed.barred z ||
            match s.holder k.compartment z with
            | some x => x != h
            | none => false
      | none => false := by
    unfold State.spanBlocked
    dsimp only
    split
    · rename_i k' e
      obtain rfl : k = k' := Option.some.inj (config.symm.trans e)
      rfl
    · rename_i e
      exact absurd (config.symm.trans e) nofun
  rw [blocked]
  cases s.spanZones (s.comp k.compartment).committed (s.hoist h) with
  | none => exact ⟨fun _ => ⟨nofun, fun _ _ => ⟨fun _ => trivial, fun _ => by cases (s.hoist _).run <;> trivial⟩⟩, fun _ => rfl⟩
  | some run =>
    have zones : (run.zones.any fun z => (s.comp k.compartment).committed.barred z ||
        match s.holder k.compartment z with
        | some x => x != h
        | none => false) = false ↔ ∀ z ∈ runZones (some run), ((s.comp k.compartment).committed.entry z).kind ≠ .barred ∧
          ∀ x, s.holder k.compartment z = some x → x = h := by
      rw [List.any_eq_false]
      refine forall₂_congr fun z _ => ?_
      cases s.holder k.compartment z <;> simp [ZoneTable.barred]
    rw [Bool.or_eq_false_iff, State.outOfOrder_iff config, zones]
    exact ⟨fun ⟨a, b⟩ => ⟨b, a⟩, fun ⟨b, a⟩ => ⟨a, b⟩⟩

end Sys2Proof.Machine
end

section
/-! ## Claims through the registry, the handovers and the report path -/

namespace Sys2Proof.Machine

namespace State.Keeps

theorem give (s : State) (p : Port) (f : Frame) : s.Keeps (s.give p f) := hoists rfl

/-! ### The registry -/

theorem setCarried (s : State) (h : HoistId) (c : Carried) : s.Keeps (s.setCarried h c) :=
  mod s h _ ⟨rfl, rfl, rfl, rfl, rfl, rfl⟩

theorem setWeighPending (s : State) (h : HoistId) (b : Bool) : s.Keeps (s.setWeighPending h b) :=
  mod s h _ ⟨rfl, rfl, rfl, rfl, rfl, rfl⟩

theorem setSlot (s : State) (l : LandingId) (i : Nat) (x : SlotState) : s.Keeps (s.setSlot l i x) := hoists rfl

theorem setStatus (s : State) (m : MassId) (x : MassStatus) : s.Keeps (s.setStatus m x) := hoists rfl

theorem doubtPlace (s : State) (t : MassId) : s.Keeps (s.doubtPlace t) := by
  unfold State.doubtPlace
  split
  · exact setSlot s _ _ _
  · split
    · exact setCarried s _ _
    · exact same s
  · exact same s

theorem vacatePlace (s : State) (t : MassId) : s.Keeps (s.vacatePlace t) := by
  unfold State.vacatePlace
  split
  · exact setSlot s _ _ _
  · split
    · exact setCarried s _ _
    · exact same s
  · exact same s

theorem weigh (s : State) (h : HoistId) : s.Keeps (s.weigh h) := by
  unfold State.weigh
  dsimp only
  refine .andThen ?_ (setWeighPending _ _ _)
  split
  · split
    · exact same s
    · exact (setCarried s _ _).andThen (hoists rfl)
    · exact (setCarried s _ _).andThen (latch _ _)
  · split
    · exact (setCarried s _ _).andThen (latch _ _)
    · split <;> exact hoists rfl
    · exact latch s _

theorem weighIfDue (s : State) (h : HoistId) : s.Keeps (s.weighIfDue h) := by
  unfold State.weighIfDue
  split
  · exact weigh s h
  · exact same s

theorem loseMass (s : State) (p : Place) (e k : Option MassId) : s.Keeps (s.loseMass p e k) := by
  unfold State.loseMass
  split
  · split
    · exact setStatus s _ _
    · exact same s
  · exact same s

theorem applyCode (s : State) (l : LandingId) (i : Nat) (e : Option MassId) (code : Byte) :
    s.Keeps (s.applyCode l i e code) := by
  have doubted : ∀ (t m : MassId) (x : SlotState) (y : MassStatus),
      s.Keeps (((s.doubtPlace t).setSlot l i x).setStatus m y) := fun t _ _ _ => (doubtPlace s t).andThen (hoists rfl)
  unfold State.applyCode
  dsimp only
  split
  · exact setSlot s _ _ _
  · split
    · split <;> exact hoists rfl
    · split
      · split
        · split <;> exact doubted _ _ _ _
        · exact doubted _ _ _ _
      · exact setSlot s _ _ _

theorem reconcileSlot (s : State) (l : LandingId) (i : Nat) (code : Byte) : s.Keeps (s.reconcileSlot l i code) := by
  unfold State.reconcileSlot
  split
  · exact same s
  · dsimp only
    have coded : ∀ e p k, s.Keeps ((s.applyCode l i e code).loseMass p e k) := fun e p k =>
      (applyCode s l i e code).andThen (loseMass _ p e k)
    split
    · exact coded _ _ _
    · exact (coded _ _ _).andThen (latch _ _)

theorem reconcile (s : State) (l : LandingId) (codes : List Byte) : s.Keeps (s.reconcile l codes) :=
  fold (fun s (x : Byte × Nat) => s.reconcileSlot l x.2 x.1) (fun s x => reconcileSlot s l x.2 x.1) _ s

/-! ### Handovers -/

theorem markWaited (s : State) (l : LandingId) (h : HoistId) : s.Keeps (s.markWaited l h) :=
  .andThen (t := s.modHandover l h fun v => { v with waited := true }) (hoists rfl)
    (mod _ h Hoist.setWaited (Hoist.sameClaims_modMove _ (fun _ => rfl) fun _ => rfl))

theorem removeHandover (s : State) (l : LandingId) (h : HoistId) : s.Keeps (s.removeHandover l h) := by
  unfold State.removeHandover
  dsimp only
  refine .andThen (t := s.modLanding l fun x => { x with
    queue := x.queue.filter fun v => v.hoist != h
    holder := if x.holder = .handover h then .none else x.holder }) (hoists rfl) ?_
  split
  · rename_i docked
    exact enter (by rw [docked]; decide) (by rw [docked]; decide) rfl (by decide) (by decide)
  · exact recompute _ h

theorem grant (s : State) (l : LandingId) (v : Handover) : s.Keeps (s.grant l v) := by
  have failed : s.Keeps (((s.modLanding l fun x => { x with holder := .handover v.hoist }).latch .handover).removeHandover l
      v.hoist) :=
    .andThen (t := (s.modLanding l fun x => { x with holder := .handover v.hoist }).latch .handover) (hoists rfl)
      (removeHandover _ _ _)
  unfold State.grant
  dsimp only
  split
  · split
    · exact hoists rfl
    · exact failed
  · exact failed

theorem arbiterFor (l : LandingId) (n : Nat) (s : State) : s.Keeps (State.arbiterFor l n s) := by
  induction n generalizing s with
  | zero => exact same s
  | succ n ih =>
    unfold State.arbiterFor
    split
    · split
      · exact same s
      · exact ((fold _ (fun s w => markWaited s l _) _ s).andThen (grant _ _ _)).andThen (ih _)
    · exact same s

theorem arbiter (s : State) (l : LandingId) : s.Keeps (s.arbiter l) := arbiterFor l _ s

theorem closeHandover (s : State) (l : LandingId) (h : HoistId) : s.Keeps (s.closeHandover l h) :=
  (removeHandover s l h).andThen (arbiter _ l)

theorem revertSlot (s : State) (l : LandingId) (v : Handover) : s.Keeps (s.revertSlot l v) := by
  unfold State.revertSlot
  split
  · exact setSlot s _ _ _
  · exact setSlot s _ _ _
  · exact same s

theorem undoLatch (s : State) (l : LandingId) (v : Handover) (o : HandoverOutcome) : s.Keeps (s.undoLatch l v o) :=
  (revertSlot s l v).andThen (hoists rfl)

theorem latchFailure (s : State) (l : LandingId) (v : Handover) : s.Keeps (s.latchFailure l v) :=
  (undoLatch s l v .failed).andThen (latch _ _)

theorem transferFailure (s : State) (l : LandingId) (v : Handover) : s.Keeps (s.transferFailure l v) := by
  unfold State.transferFailure
  dsimp only
  refine .andThen (.andThen ?_ (setCarried _ v.hoist .unknownLoad)) (hoists rfl)
  split
  · exact hoists rfl
  · exact same s

theorem applyTransfer (s : State) (l : LandingId) (v : Handover) (i : Nat) (m : MassId) :
    s.Keeps (s.applyTransfer l v i m) := by
  unfold State.applyTransfer
  split <;> exact ((setSlot s _ _ _).andThen (setCarried _ _ _)).andThen (setStatus _ _ _)

theorem applyMismatch (s : State) (l : LandingId) (v : Handover) (i : Nat) (m : MassId) (tag : Byte) :
    s.Keeps (s.applyMismatch l v i m tag) := by
  have first : s.Keeps (match s.declaredTag (s.massInOtherHandover v.hoist) tag with
      | some t =>
        match v.kind with
        | .deposit => ((s.doubtPlace t).setSlot l i (.occupied t)).setStatus t (.placed (.slot l i))
        | .collect => ((s.doubtPlace t).setCarried v.hoist (.mass t)).setStatus t (.placed (.hoist v.hoist))
      | none =>
        match v.kind with
        | .deposit => s.setSlot l i (.blocked none)
        | .collect => s.setCarried v.hoist .unknownLoad) := by
    cases s.declaredTag (s.massInOtherHandover v.hoist) tag <;> cases v.kind
    · exact setSlot s _ _ _
    · exact setCarried s _ _
    · exact (doubtPlace s _).andThen (hoists rfl)
    · exact ((doubtPlace s _).andThen (setCarried _ _ _)).andThen (setStatus _ _ _)
  unfold State.applyMismatch
  dsimp only
  refine .andThen (.andThen (.andThen first ?_) (setStatus _ _ _)) (latch _ _)
  cases v.kind with
  | deposit => exact setCarried _ v.hoist .none
  | collect => exact setSlot _ l i .empty

theorem transferDone (s : State) (l : LandingId) (v : Handover) (tag : Byte) : s.Keeps (s.transferDone l v tag) := by
  unfold State.transferDone
  split
  · dsimp only
    refine .andThen (.andThen ?_ (setWeighPending _ v.hoist _)) (hoists rfl)
    split
    · exact applyTransfer s _ _ _ _
    · exact applyMismatch s _ _ _ _ _
  · exact same s

theorem reportToHandover (s : State) (l : LandingId) (v : Handover) (st : ShuttleState) (tag : Byte) :
    s.Keeps (s.reportToHandover l v st tag) := by
  unfold State.reportToHandover
  split
  · exact hoists rfl
  · exact latchFailure s _ _
  · exact transferDone s _ _ _
  · exact transferFailure s _ _
  · exact transferFailure s _ _
  · exact closeHandover s _ _
  · exact hoists rfl
  · exact same s

theorem handoverTimeout (s : State) (l : LandingId) (v : Handover) : s.Keeps (s.handoverTimeout l v) := by
  unfold State.handoverTimeout
  split
  · exact latchFailure s _ _
  · exact transferFailure s _ _
  · exact hoists rfl
  · exact same s
  · exact same s

theorem endSurvey (s : State) (l : LandingId) : s.Keeps (s.endSurvey l) :=
  .andThen (t := s.modLanding l fun x => { x with survey := false, surveyTimer := none, holder := .none }) (hoists rfl)
    (arbiter _ l)

theorem surveyFailure (s : State) (l : LandingId) : s.Keeps (s.surveyFailure l) := (latch s _).andThen (endSurvey _ l)

theorem reportToSurvey (s : State) (l : LandingId) (st : ShuttleState) (codes : List Byte) :
    s.Keeps (s.reportToSurvey l st codes) := by
  unfold State.reportToSurvey
  dsimp only
  split
  · split
    · exact (reconcile s _ _).andThen (endSurvey _ _)
    · exact surveyFailure s _
  · exact surveyFailure s _
  all_goals exact same s

theorem shuttlePath (s : State) (a : Byte) (w : ShuttleWire) : s.Keeps (s.shuttlePath a w) := by
  unfold State.shuttlePath
  split
  · rename_i l _
    unfold State.takeShuttleReport
    dsimp only
    refine .andThen (t := s.modLanding l fun x => { x with shuttle := shuttleStateOf w.state }) (hoists rfl) ?_
    split
    · split
      · exact reportToHandover _ _ _ _ _
      · exact same _
    · exact reportToSurvey _ _ _ _
    · exact arbiter _ _
  · exact same s

/-! ### REPORT and DEMAND -/

theorem trackReport (s : State) (h : HoistId) (w : ReportWire) : s.Keeps (s.trackReport h w) := by
  unfold State.trackReport
  split
  · exact mod s h _ ⟨rfl, rfl, rfl, rfl, rfl, rfl⟩
  · exact same s

theorem copyReference (s : State) (h : HoistId) : s.Keeps (s.copyReference h) :=
  mod s h _ ⟨rfl, rfl, rfl, rfl, rfl, rfl⟩

theorem reportPath (s : State) (h : HoistId) (w : ReportWire) : s.Keeps (s.reportPath h w) := by
  have tested : s.Keeps ((((s.copyReference h).trackReport h w).releaseBehind h).actOnTests h (s.sinceReport h)) :=
    (((copyReference s h).andThen (trackReport _ h w)).andThen (releaseBehind _ h)).andThen (actOnTests _ h _)
  exact (((((tested.andThen (resolveState _ h)).andThen (takeProofResult _ h)).andThen (evaluateProof _ h)).andThen
    (weighIfDue _ h)).andThen (logEnd _ h _)).andThen (recompute _ h)

theorem restartDemandTimer (s : State) (h : HoistId) : s.Keeps (s.restartDemandTimer h) :=
  mod s h _ ⟨rfl, rfl, rfl, rfl, rfl, rfl⟩

theorem superviseDemand (s : State) (h : HoistId) (v : Int) : s.Keeps (s.superviseDemand h v) := by
  have kept : s.Keeps (s.modHoist h fun r =>
      { r with lastVelocity := (s.hoist h).forwardedVelocity v, lastReason := (s.hoist h).clampReason v }) :=
    mod s h _ ⟨rfl, rfl, rfl, rfl, rfl, rfl⟩
  have latched : ∀ t : State, s.Keeps t → s.Keeps (if (s.hoist h).clampReason v = .mismatch then t.latch .mismatch else t) := by
    intro t k
    split
    · exact k.andThen (latch t _)
    · exact k
  unfold State.superviseDemand
  dsimp only
  refine .andThen ?_ (give _ _ _)
  split
  · refine ((latched _ kept).andThen (mod _ h _ ?_)).andThen (latch _ _)
    exact Hoist.sameClaims_modMove _ (f := fun m => { m with clamped := true }) (fun _ => rfl) fun _ => rfl
  · exact latched _ kept

/-! ### Expiries -/

theorem expiry (s : State) (timer : Option Nat) (f : State → State) (each : s.Keeps (f s)) :
    s.Keeps (expiry s timer f) := by
  unfold Machine.expiry
  split
  · exact each
  · exact same s

theorem takeSecond (s : State) (h : HoistId) : s.Keeps (s.takeSecond h) :=
  (mod s h _ ⟨rfl, rfl, rfl, rfl, rfl, rfl⟩).andThen (latch _ _)

theorem reportLoss (s : State) (h : HoistId) : s.Keeps (s.reportLoss h) := by
  unfold State.reportLoss
  split
  · exact trip s h _
  · exact trip s h _
  · exact trip s h _
  · exact trip s h _
  · exact trip s h _
  · exact trip s h _
  · exact trip s h _
  · exact latch s _
  · exact latch s _
  · exact same s
  · exact same s

theorem lapse (s : State) (h : HoistId) : s.Keeps (s.lapse h) := by
  unfold State.lapse
  dsimp only
  refine .andThen (mod s h (fun r => { r with reportTimer := none }) ⟨rfl, rfl, rfl, rfl, rfl, rfl⟩) ?_
  split
  · exact (mod _ h _ ⟨rfl, rfl, rfl, rfl, rfl, rfl⟩).andThen (reportLoss _ h)
  · exact same _
  · exact same _

theorem actOnStale (s : State) (h : HoistId) : s.Keeps (s.actOnStale h) := by
  unfold State.actOnStale
  split
  · split
    · exact stopHoist s h _
    · exact trip s h _
  · exact same s

/-! ### Orders of the handovers and the registry -/

theorem abortTransfer (s : State) (b : Byte) : s.Keeps (s.abortTransfer b).1 := by
  unfold State.abortTransfer
  split
  · exact same s
  · split
    · exact same s
    · split
      · exact closeHandover s _ _
      · exact undoLatch s _ _ _
      all_goals exact same s

theorem applyResolve (s : State) (l : LandingId) (v : Handover) (x : ResolveOutcome) : s.Keeps (s.applyResolve l v x) := by
  unfold State.applyResolve
  split
  · split <;> exact (((setStatus s _ _).andThen (setSlot _ _ _ _)).andThen (setCarried _ _ _)).andThen (setWeighPending _ _ _)
  · exact same s

theorem resolve (s : State) (b outcome : Byte) : s.Keeps (s.resolve b outcome).1 := by
  unfold State.resolve
  split
  · exact same s
  · split
    · exact same s
    · split
      · exact same s
      · exact check (same s) fun _ => check (hoists rfl) fun _ => (applyResolve s _ _ _).andThen (hoists rfl)

theorem blockSlot (s : State) (b : Byte) (i : Nat) : s.Keeps (s.blockSlot b i).1 := by
  unfold State.blockSlot
  split
  · exact same s
  · refine check (same s) fun _ => check (same s) fun _ => check (same s) fun _ => ?_
    unfold State.blockSlotAt
    split
    all_goals exact hoists rfl

theorem unblockSlot (s : State) (b : Byte) (i : Nat) : s.Keeps (s.unblockSlot b i).1 := by
  unfold State.unblockSlot
  split
  · exact same s
  · refine check (same s) fun _ => check (same s) fun _ => ?_
    split
    · exact check (same s) fun _ => setSlot s _ _ _
    all_goals exact same s

theorem declareMass (s : State) (b : Byte) (nominal : Nat) (kind place slot : Byte) :
    s.Keeps (s.declareMass b nominal kind place slot).1 := by
  unfold State.declareMass
  split
  · exact same s
  · split
    · exact same s
    · exact same s
    · rename_i m _ _ p _
      refine check (same s) fun _ => check (same s) fun _ => check (same s) fun _ => ?_
      unfold State.accept State.declare
      refine .andThen (.andThen (t := (s.vacatePlace m).modMass m fun _ => ⟨.uncertain (some p), some nominal, none⟩)
        (.andThen (vacatePlace s m) (hoists rfl)) ?_) (same _)
      cases p with
      | slot l i => exact setSlot _ l i _
      | hoist h => exact setCarried _ h _

theorem removeMass (s : State) (b : Byte) : s.Keeps (s.removeMass b).1 := by
  unfold State.removeMass
  split
  · exact same s
  · exact check (same s) fun _ => check (same s) fun _ => (vacatePlace s _).andThen (hoists rfl)

theorem verify (s : State) (b : Byte) : s.Keeps (s.verify b).1 := by
  unfold State.verify
  split
  · exact same s
  · exact check (same s) fun _ => check (same s) fun _ => hoists rfl

/-! ### Orders of the part -/

theorem proofWrite (s : State) (hours ceiling : Nat) : s.Keeps (s.proofWrite hours ceiling).1 := by
  unfold State.proofWrite
  refine check ?_ fun _ => same s
  have evaluated : s.Keeps (State.evaluateAll { s with proofInterval := hours * 3600, degradedCeiling := ceiling }) :=
    .andThen (t := { s with proofInterval := hours * 3600, degradedCeiling := ceiling }) (hoists rfl) (evaluateAll _)
  dsimp only [State.accept]
  split
  · exact evaluated.andThen (fold _ (fun s h => recompute s h) _ _)
  · exact evaluated

theorem status (s : State) : s.Keeps s.status.1 := by
  unfold State.status State.clearStatus State.relatchRecords
  dsimp only
  split <;> exact hoists rfl

theorem scopeOptions (s : State) (b scope stale : Byte) : s.Keeps (s.scopeOptions b scope stale).1 := by
  unfold State.scopeOptions
  split
  · exact same s
  · split
    · exact hoists (State.modComp_hoists _ _ _)
    · exact same s

theorem readRecord (s : State) : s.Keeps s.readRecord.1 := by
  unfold State.readRecord
  split
  · exact same s
  · exact hoists rfl

theorem logControl (s : State) (b : Byte) : s.Keeps (s.logControl b).1 := by
  unfold State.logControl
  exact check (hoists rfl) fun _ => check (hoists rfl) fun _ => same s

theorem timerWrite (s : State) (p : TimerParams) : s.Keeps (s.timerWrite p).1 := by
  unfold State.timerWrite
  split
  · exact same s
  · exact hoists rfl

theorem writeCeiling (s : State) (h : HoistId) (v : Nat) : s.Keeps (s.writeCeiling h v) :=
  (mod s h _ ⟨rfl, rfl, rfl, rfl, rfl, rfl⟩).andThen (recompute _ h)

theorem ceiling (s : State) (b : Byte) (v : Nat) : s.Keeps (s.ceiling b v).1 := by
  unfold State.ceiling
  split
  · exact same s
  · exact check (writeCeiling s _ v) fun _ => same s

theorem groupCeiling (s : State) (b : Byte) (v : Nat) : s.Keeps (s.groupCeiling b v).1 := by
  unfold State.groupCeiling
  split
  · exact same s
  · exact fold _ (fun s h => writeCeiling s h v) _ s

theorem groupWrite (s : State) (b set : Byte) : s.Keeps (s.groupWrite b set).1 := by
  unfold State.groupWrite
  split
  · exact same s
  · exact check (hoists rfl) fun _ => same s

theorem groupStop (s : State) (b : Byte) : s.Keeps (s.groupStop b).1 := by
  unfold State.groupStop
  split
  · exact same s
  · exact stopAll s _

/-! ### Orders of the shaft map that move no run -/

theorem modComp (s : State) (c : Compartment) (f : CompartmentRec → CompartmentRec) : s.Keeps (s.modComp c f) :=
  hoists (s.modComp_hoists c f)

theorem emptyIfShort (s : State) (c : Compartment) : s.Keeps (s.emptyIfShort c) := by
  unfold State.emptyIfShort
  split
  · exact same s
  · exact modComp s c _

theorem emptyIfMisfit (s : State) (c : Compartment) : s.Keeps (s.emptyIfMisfit c) := by
  unfold State.emptyIfMisfit
  split
  · exact same s
  · exact modComp s c _

theorem shaftWrite (s : State) (a b c d : Nat) : s.Keeps (s.shaftWrite a b c d).1 := by
  unfold State.shaftWrite
  exact check (same s) fun _ => check (same s) fun _ => check (same s) fun _ =>
    .andThen (t := { s with shaft := ⟨a, b, c, d⟩ }) (hoists rfl) ((emptyIfShort _ .a).andThen (emptyIfShort _ .b))

theorem zoneWriteEntry (s : State) (b : Byte) (i u v : Nat) (kind landing : Byte) :
    s.Keeps (s.zoneWriteEntry b i u v kind landing).1 := by
  unfold State.zoneWriteEntry
  split
  · exact same s
  · split
    · exact same s
    · exact check (modComp s _ fun _ => _) fun _ => same s

theorem zoneWriteCount (s : State) (b : Byte) (n : Nat) : s.Keeps (s.zoneWriteCount b n).1 := by
  unfold State.zoneWriteCount
  split
  · exact same s
  · exact check (modComp s _ fun _ => _) fun _ => same s

theorem landingRemove (s : State) (b : Byte) : s.Keeps (s.landingRemove b).1 := by
  have emptied : ∀ (t : State) (c : Compartment) (p : Prop) [Decidable p], t.Keeps (if p then t.emptyTable c else t) := by
    intro t c p _
    split
    · exact modComp t c _
    · exact same t
  unfold State.landingRemove
  split
  · exact same s
  · exact check (same s) fun _ => check (same s) fun _ => check (same s) fun _ =>
      .andThen (t := s.setLanding _ .initial) (hoists rfl) ((emptied _ .a _).andThen (emptied _ .b _))

theorem landingWrite (s : State) (b : Byte) (sill slots : Nat) (mode served : Byte) (station : Nat) :
    s.Keeps (s.landingWrite b sill slots mode served station).1 := by
  have tested : ∀ (t : State) (c : Compartment) (p : Prop) [Decidable p], t.Keeps (if p then t.emptyIfMisfit c else t) := by
    intro t c p _
    split
    · exact emptyIfMisfit t c
    · exact same t
  unfold State.landingWrite
  split
  · exact same s
  · split
    · exact same s
    · refine check (same s) fun _ => check (same s) fun _ => check (same s) fun _ => check (same s) fun _ => ?_
      unfold State.accept State.defineLanding
      exact .andThen (t := ite _ _ _) (.andThen (t := s.modLanding _ fun _ => _) (hoists rfl) (tested _ .a _)) (tested _ .b _)

theorem transfer (s : State) (b kind selector mass : Byte) : s.Keeps (s.transfer b kind selector mass).1 := by
  have opened : ∀ (h : HoistId) (l : LandingId) (q : TransferRequest), (s.hoist h).state = .ready →
      s.Keeps (s.openTransfer h l q) := by
    intro h l q ready
    unfold State.openTransfer
    dsimp only
    have first : s.Keeps ((s.modLanding l fun x => { x with queue := x.queue ++ [s.openedHandover h l q] }).enter h .docked) :=
      .andThen (t := s.modLanding l fun x => { x with queue := x.queue ++ [s.openedHandover h l q] }) (hoists rfl)
        (enter (by rw [State.hoist_modLanding, ready]; decide) (by rw [State.hoist_modLanding, ready]; decide) rfl
          (by decide) (by decide))
    split
    · exact first.andThen (arbiter _ l)
    · exact first.andThen (markWaited _ l h)
  have fits : ∀ (h : HoistId) (k : HoistConfig) (l : LandingId) (q : TransferRequest), (s.hoist h).state = .ready →
      s.Keeps (s.transferAt h k l q).1 := by
    intro h k l q ready
    unfold State.transferAt
    dsimp only
    exact check (same s) fun _ => check (same s) fun _ => check (same s) fun _ => check (same s) fun _ =>
      check (same s) fun _ => check (same s) fun _ => opened h l q ready
  unfold State.transfer
  split
  · split
    · refine check (same s) fun _ => ?_
      unfold State.transferTo
      split
      · exact same s
      · refine check (same s) fun _ => check (same s) fun ready => ?_
        rw [not_not] at ready
        split
        · exact same s
        · exact check (same s) fun _ => fits _ _ _ _ ready
    · exact same s
  · exact same s

end State.Keeps

end Sys2Proof.Machine
end

section
/-! ## Claims through RESET_HOIST, HOIST_CONFIG and the orders of a compartment -/

namespace Sys2Proof.Machine

/-! ### RESET_HOIST -/

/-- A hoist as RESET_HOIST leaves it, before its run is set to the span (R54). -/
def Hoist.resetParked (r : Hoist) : Hoist := { r.atRest .parked with tripCause := none }

/-- The state of a reset with the run still to be set to the span. -/
def State.resetState (s : State) (h : HoistId) : State := s.setHoist h (s.hoist h).resetParked

theorem State.reset_enter (s : State) (h : HoistId) :
    (s.modHoist h fun r => { r with tripCause := none }).enter h .parked = s.resetState h := by
  rw [State.enter_rest _ _ rfl, State.modHoist_hoist_self]
  exact State.setHoist_setHoist ..

theorem State.hoist_resetState_self (s : State) (h : HoistId) : (s.resetState h).hoist h = (s.hoist h).resetParked :=
  s.setHoist_hoist_self h _

theorem State.hoist_resetState_other (s : State) {h y : HoistId} (ne : y ≠ h) : (s.resetState h).hoist y = s.hoist y :=
  s.setHoist_hoist_ne ne _

theorem State.resetState_runToSpan {s : State} {h : HoistId} {k : HoistConfig} (config : (s.hoist h).config = some k) :
    (s.resetState h).runToSpan h = (s.resetState h).setRun h (s.spanZones (s.comp k.compartment).committed (s.hoist h))
      (leavingZones (s.hoist h).run (s.spanZones (s.comp k.compartment).committed (s.hoist h))) := by
  have span : (s.resetState h).spanZones ((s.resetState h).tableOf (s.hoist h).resetParked) (s.hoist h).resetParked =
      s.spanZones (s.comp k.compartment).committed (s.hoist h) := by
    unfold State.tableOf
    rw [show (s.hoist h).resetParked.config = some k from config]
    rfl
  unfold State.runToSpan
  rw [State.hoist_resetState_self]
  dsimp only
  rw [span]
  rfl

theorem State.Keeps.resetState {s : State} {h : HoistId} (tripped : (s.hoist h).state = .tripped) :
    s.Keeps (s.resetState h) := by
  refine .one (h := h) (fun y ne => s.hoist_resetState_other ne) fun x => ?_
  obtain ⟨shut, none_⟩ := x.still (by rw [tripped]; decide) (by rw [tripped]; decide)
  rw [State.hoist_resetState_self]
  exact ⟨⟨rfl, rfl, .inl ⟨rfl, rfl⟩⟩, .of_still rfl nofun nofun shut none_⟩

/-- A clear span lies in no other run. -/
theorem State.SpanClear.alone {s : State} {p : HoistId → Compartment → Nat → Prop} (x : s.Spaced p) {h y : HoistId}
    {k : HoistConfig} {run : Option Run} (clear : s.SpanClear h k run) (ne : y ≠ h)
    (inside : (s.hoist y).inCompartment k.compartment = true) {z : Nat} (m : inRun run z = true) :
    inRun (s.hoist y).run z = false := by
  rw [Bool.eq_false_iff]
  intro held
  cases holder : s.holder k.compartment z with
  | none =>
    have free : s.isFree k.compartment z = true := by
      unfold State.isFree
      rw [holder]
      rfl
    rw [State.isFree_iff.1 free y inside] at held
    cases held
  | some w =>
    obtain rfl := (clear.zones z (mem_runZones.2 m)).2 w holder
    obtain ⟨within, own⟩ := State.holder_spec holder
    rw [x.shared w y _ z ne.symm within inside own] at held
    cases held

/-- A run in rank order with the others keeps the order when it is set. -/
theorem State.Ranked.withRun {s : State} (o : s.Ranked) {h : HoistId} {run : Option Run}
    (order : ∀ y c, (s.hoist h).inCompartment c = true → (s.hoist y).inCompartment c = true → ∀ v w,
      inRun run v = true → inRun (s.hoist y).run w = true →
        ((s.hoist h).rank < (s.hoist y).rank → v < w) ∧ ((s.hoist y).rank < (s.hoist h).rank → w < v)) :
    (s.withRun h run).Ranked := by
  intro a b c v w ain bin less mv mw
  rw [Hoist.inCompartment_config (s.withRun_config h run _)] at ain bin
  rw [Hoist.rank_config (s.withRun_config h run _), Hoist.rank_config (s.withRun_config h run _)] at less
  rw [State.withRun_run] at mv mw
  split at mv
  · rename_i ea
    subst ea
    rw [if_neg fun e => absurd less (by rw [e]; exact Nat.lt_irrefl _)] at mw
    exact (order b c ain bin v w mv mw).1 less
  · split at mw
    · rename_i eb
      subst eb
      exact (order a c bin ain w v mw mv).2 less
    · exact o a b c v w ain bin less mv mw

theorem State.SpanClear.keeps {s : State} {h : HoistId} {k : HoistConfig} (config : (s.hoist h).config = some k)
    (tripped : (s.hoist h).state = .tripped)
    (clear : s.SpanClear h k (s.spanZones (s.comp k.compartment).committed (s.hoist h))) :
    s.Keeps ((s.resetState h).runToSpan h) := by
  intro x
  have extent : (s.hoist h).extent = [] := ((x.settled h).still (by rw [tripped]; decide) (by rw [tripped]; decide)).2
  obtain ⟨claimed, rank⟩ := Keeps.resetState tripped x
  have block := s.spanZones_block (s.comp k.compartment).committed (s.hoist h)
  have self := s.hoist_resetState_self h
  rw [State.resetState_runToSpan config]
  generalize s.spanZones (s.comp k.compartment).committed (s.hoist h) = run at clear block
  have inside : ∀ c, ((s.resetState h).hoist h).inCompartment c = true → k.compartment = c := by
    intro c m
    obtain ⟨k', config', rfl⟩ := Hoist.inCompartment_iff.1 m
    rw [self] at config'
    exact congrArg _ (Option.some.inj (config.symm.trans config'))
  have clear_ : ∀ z y c, y ≠ h → ((s.resetState h).hoist h).inCompartment c = true →
      ((s.resetState h).hoist y).inCompartment c = true → inRun run z = true →
      inRun ((s.resetState h).hoist y).run z = false := by
    intro z y c ne hin yin m
    obtain rfl := inside c hin
    rw [State.hoist_resetState_other s ne] at yin ⊢
    exact clear.alone x.spaced ne yin m
  have lost : ∀ z, inRun ((s.resetState h).hoist h).run z = true →
      inRun run z = true ∨ z ∈ leavingZones (s.hoist h).run run := by
    intro z m
    rw [self] at m
    cases kept : inRun run z with
    | true => exact .inl rfl
    | false => exact .inr (mem_leavingZones m kept)
  obtain ⟨spaced, ranked⟩ := State.setRun_sets claimed.spaced clear_ lost (by
    rw [self, show (s.hoist h).resetParked.extent = [] from extent]
    exact extentFits_nil.2 block)
  refine ⟨⟨fun y => .walked (State.setRun_walked _ h _ _ y) ?_, spaced⟩, fun o => ranked ((rank o).withRun ?_)⟩
  · by_cases ne : y = h
    · subst ne
      obtain ⟨down, up, with_⟩ := (s.resetState y).hoist_withRun_self y run
      have settled := claimed.settled y
      rw [with_]
      refine ⟨fun out => ?_, settled.moves, settled.pends⟩
      rw [self] at out
      cases out
    · rw [State.hoist_withRun_other _ ne]
      exact claimed.settled y
  · intro y c hin yin v w mv mw
    obtain rfl := inside c hin
    by_cases ne : y = h
    · subst ne
      exact ⟨fun less => absurd less (Nat.lt_irrefl _), fun less => absurd less (Nat.lt_irrefl _)⟩
    · have hrank : ((s.resetState h).hoist h).rank = k.rank := by
        rw [self]
        unfold Hoist.rank
        rw [show (s.hoist h).resetParked.config = some k from config]
      rw [hrank]
      rw [State.hoist_resetState_other s ne] at yin mw ⊢
      obtain ⟨before, after⟩ := clear.order y yin
      exact ⟨fun less => (above_iff block (x.spaced.blocks y)).1 (before less) v w mv mw,
        fun less => (above_iff (x.spaced.blocks y) block).1 (after less) w v mw mv⟩

/-- A hoist found by its number is configured. -/
theorem State.configuredHoist_some {s : State} {b : Byte} {h : HoistId} (e : s.configuredHoist b = some h) :
    ∃ k, (s.hoist h).config = some k := by
  unfold State.configuredHoist at e
  split at e
  · split at e
    · cases e
      exact Option.isSome_iff_exists.1 ‹_›
    · cases e
  · cases e

theorem State.Keeps.resetHoist (s : State) (b : Byte) : s.Keeps (s.resetHoist b).1 := by
  unfold State.resetHoist
  split
  · exact same s
  · rename_i h found
    obtain ⟨k, config⟩ := State.configuredHoist_some found
    refine check (same s) fun tripped => check (same s) fun _ => check (same s) fun _ => check (same s) fun blocked => ?_
    rw [not_not] at tripped
    dsimp only
    rw [State.reset_enter]
    exact ((State.spanBlocked_iff config).1 (Bool.eq_false_iff.2 blocked)).keeps config tripped

/-! ### Hoists placed afresh -/

/-- A hoist that does not travel, with its move closed and no extent. -/
theorem Hoist.Settled.of_rest {r : Hoist} (outside : r.state.supervised = false → r.run = none)
    (moving : r.state ≠ .moving) (stopping : r.state ≠ .stopping) (shut : r.moveOpen = false) (none_ : r.extent = []) :
    r.Settled := by
  refine ⟨outside, ?_, fun some_ => absurd none_ some_⟩
  simp [shut, moving, stopping]

/-- A change that places some hoists afresh, with no extent, and leaves the claims of the others. What a hoist left alone awaits
is still held. -/
theorem State.Claimed.placed {s t : State} (x : s.Claimed) (P : HoistId → Prop)
    (same : ∀ y, ¬P y → (s.hoist y).SameClaims (t.hoist y))
    (placed : ∀ y, P y → (t.hoist y).Settled ∧ (t.hoist y).extent = [] ∧ Block (t.hoist y).run)
    (apart_ : ∀ a b c z, P a → a ≠ b → (t.hoist a).inCompartment c = true → (t.hoist b).inCompartment c = true →
      inRun (t.hoist a).run z = true → inRun (t.hoist b).run z = false)
    (freed : ∀ y c z, ¬P y → (t.hoist y).inCompartment c = true → t.isFree c z = true → s.isFree c z = true) :
    t.Claimed := by
  refine ⟨fun y => ?_, fun y => ?_, fun a b c z ne ain bin m => ?_, fun y k z config head free => ?_⟩
  · by_cases p : P y
    · exact (placed y p).1
    · exact (x.settled y).of_same (same y p)
  · by_cases p : P y
    · obtain ⟨-, none_, block⟩ := placed y p
      rw [none_]
      exact extentFits_nil.2 block
    · rw [(same y p).run, (same y p).extent, (same y p).moveDirection]
      exact x.spaced.extents y
  · by_cases pa : P a
    · exact apart_ a b c z pa ne ain bin m
    · by_cases pb : P b
      · rw [Bool.eq_false_iff]
        intro held
        rw [apart_ b a c z pb ne.symm bin ain held] at m
        cases m
      · rw [Hoist.inCompartment_config (same _ pa).config] at ain
        rw [Hoist.inCompartment_config (same _ pb).config] at bin
        rw [(same a pa).run] at m
        rw [(same b pb).run]
        exact x.spaced.shared a b c z ne ain bin m
  · by_cases p : P y
    · rw [(placed y p).2.1] at head
      cases head
    · have inside := Hoist.inCompartment_iff.2 ⟨k, config, rfl⟩
      rw [(same y p).config] at config
      rw [(same y p).extent] at head
      exact x.spaced.awaited y k z config head (freed y _ z p inside free)

/-- A hoist is in one compartment. -/
theorem Hoist.inCompartment_unique {r : Hoist} {c d : Compartment} (a : r.inCompartment c = true)
    (b : r.inCompartment d = true) : c = d := by
  obtain ⟨k, e, rfl⟩ := Hoist.inCompartment_iff.1 a
  obtain ⟨k', e', rfl⟩ := Hoist.inCompartment_iff.1 b
  rw [Option.some.inj (e.symm.trans e')]

/-- The hoists of a compartment placed on runs that are apart and in order; the others stay (R12, R146 to R148). -/
theorem State.Keeps.compartment {s t : State} {c : Compartment}
    (config : ∀ y, (t.hoist y).config = (s.hoist y).config)
    (same : ∀ y, (s.hoist y).inCompartment c = false → (s.hoist y).SameClaims (t.hoist y))
    (placed : ∀ y, (s.hoist y).inCompartment c = true →
      ((s.hoist y).Settled → (t.hoist y).Settled ∧ (t.hoist y).extent = []) ∧ Block (t.hoist y).run)
    (clear : ∀ a b v w, a ≠ b → (s.hoist a).inCompartment c = true → (s.hoist b).inCompartment c = true →
      inRun (t.hoist a).run v = true → inRun (t.hoist b).run w = true →
        v ≠ w ∧ ((s.hoist a).rank < (s.hoist b).rank → v < w)) : s.Keeps t := by
  have inside : ∀ y d, (t.hoist y).inCompartment d = (s.hoist y).inCompartment d := fun y d =>
    Hoist.inCompartment_config (config y) d
  have out : ∀ y d, d ≠ c → (s.hoist y).inCompartment d = true → (s.hoist y).inCompartment c = false := fun y d ne m =>
    Bool.eq_false_iff.2 fun m' => ne (Hoist.inCompartment_unique m m')
  intro x
  refine ⟨x.placed (fun y => (s.hoist y).inCompartment c = true) (fun y p => same y (Bool.eq_false_iff.2 p))
    (fun y p => ?_) (fun a b d z p ne ain bin m => ?_) (fun y d z p yin free => ?_), fun o a b d v w ain bin less mv mw => ?_⟩
  · obtain ⟨settled, block⟩ := placed y p
    exact ⟨(settled (x.settled y)).1, (settled (x.settled y)).2, block⟩
  · rw [inside] at ain bin
    obtain rfl := Hoist.inCompartment_unique p ain
    rw [Bool.eq_false_iff]
    exact fun held => (clear a b z z ne p bin m held).1 rfl
  · rw [inside] at yin
    have other : d ≠ c := fun e => p (e ▸ yin)
    rw [State.isFree_iff] at free ⊢
    intro v vin
    have := free v (by rwa [inside])
    rwa [(same v (out v d other vin)).run] at this
  · rw [inside] at ain bin
    rw [Hoist.rank_config (config a), Hoist.rank_config (config b)] at less
    by_cases here : d = c
    · subst here
      refine (clear a b v w ?_ ain bin mv mw).2 less
      rintro rfl
      exact absurd less (Nat.lt_irrefl _)
    · rw [(same a (out a d here ain)).run] at mv
      rw [(same b (out b d here bin)).run] at mw
      exact o a b d v w ain bin less mv mw

/-- Runs that no zone puts in conflict are apart and in rank order (R12, R147). -/
theorem State.clear_of_conflictZone {s : State} {c : Compartment} {t : ZoneTable}
    (none_ : conflictZone t (s.candidates c t) = none) {a b : HoistId} {v w : Nat} (ne : a ≠ b)
    (ain : (s.hoist a).inCompartment c = true) (bin : (s.hoist b).inCompartment c = true)
    (mv : inRun (s.spanZones t (s.hoist a)) v = true) (mw : inRun (s.spanZones t (s.hoist b)) w = true) :
    v ≠ w ∧ ((s.hoist a).rank < (s.hoist b).rank → v < w) := by
  have none_ : ∀ z, 1 ≤ z ∧ z ≤ t.count → ¬s.Clash c t z := by
    intro z here clash
    have := (ZoneTable.find_zones_eq_none.1 none_) z here.1 here.2
    exact this (State.conflictAt_iff.2 clash)
  obtain ⟨ra, ea, ha⟩ := inRun_iff.1 mv
  obtain ⟨rb, eb, hb⟩ := inRun_iff.1 mw
  obtain ⟨lowa, -, higha⟩ := State.spanZones_range ea
  obtain ⟨-, -, -⟩ := State.spanZones_range eb
  simp only [Run.holds, Bool.and_eq_true, decide_eq_true_eq] at ha hb
  have zone : 1 ≤ v ∧ v ≤ t.count := ⟨by omega, by omega⟩
  refine ⟨?_, fun less => ?_⟩
  · rintro rfl
    exact none_ v zone ⟨a, ain, mv, .inr ⟨b, ne.symm, bin, .inl mw⟩⟩
  · by_contra not
    refine none_ v zone ⟨a, ain, mv, .inr ⟨b, ne.symm, bin, .inr ⟨less, rb, eb, by omega⟩⟩⟩

/-! ### RELEASE_SCOPE -/

/-- A change of each hoist of a list in turn is one change of them all. -/
theorem State.foldl_setHoist {f : State → HoistId → State} {g : Hoist → Hoist}
    (each : ∀ s h, f s h = s.setHoist h (g (s.hoist h))) (hs : List HoistId) (nodup : hs.Nodup) (s : State) :
    hs.foldl f s = s.mapHoists fun h r => if h ∈ hs then g r else r := by
  induction hs generalizing s with
  | nil => exact (s.mapHoists_id fun h => if_neg List.not_mem_nil).symm
  | cons x xs ih =>
    obtain ⟨fresh, nodup⟩ := List.nodup_cons.1 nodup
    rw [List.foldl_cons, ih nodup, each]
    refine State.mapHoists_ext rfl fun h => ?_
    rw [State.setHoist_hoist]
    by_cases e : h = x
    · subst e
      simp [fresh]
    · simp [e]

/-- A hoist as RELEASE_SCOPE leaves it (R146). -/
def Hoist.released (r : Hoist) : Hoist := { r.atRest .releasedLocal with run := none }

theorem State.releaseHoist_eq (s : State) (h : HoistId) : s.releaseHoist h = s.setHoist h (s.hoist h).released := by
  unfold State.releaseHoist
  rw [State.enter_rest _ _ rfl, State.modHoist_hoist_self]
  exact State.setHoist_setHoist ..

/-- The state after an accepted RELEASE_SCOPE (R146). -/
def State.releasedScope (s : State) (c : Compartment) : State :=
  (s.setScope c .released).mapHoists fun _ r => if r.inCompartment c = true then r.released else r

theorem State.releaseAll_eq (s : State) (c : Compartment) :
    (s.hoistsOf c).foldl (fun s h => s.releaseHoist h) (s.setScope c .released) = s.releasedScope c := by
  rw [State.foldl_setHoist State.releaseHoist_eq _ (s.hoistsOf_nodup c)]
  unfold State.releasedScope
  refine State.mapHoists_ext rfl fun h => ?_
  simp only [State.mem_hoistsOf, State.setScope, State.modComp, State.hoist_setComp]

theorem State.hoist_releasedScope (s : State) (c : Compartment) (h : HoistId) :
    (s.releasedScope c).hoist h = if (s.hoist h).inCompartment c = true then (s.hoist h).released else s.hoist h := by
  unfold State.releasedScope State.setScope State.modComp
  rw [State.hoist_mapHoists, State.hoist_setComp]

namespace State.Keeps

theorem releaseScope (s : State) (b : Byte) : s.Keeps (s.releaseScope b).1 := by
  unfold State.releaseScope
  split
  · exact same s
  · rename_i c _
    refine check (same s) fun _ => check (same s) fun parked => check (same s) fun _ => ?_
    rw [Bool.not_eq_false, State.releaseAll_eq] at *
    have parked : ∀ h, (s.hoist h).inCompartment c = true → (s.hoist h).state = .parked := State.allParked_iff.1 parked
    refine compartment (c := c) (fun y => ?_) (fun y out => ?_) (fun y yin => ?_) (fun a b v w _ ain _ m => ?_)
    · show ((s.releasedScope c).hoist y).config = _
      rw [State.hoist_releasedScope]
      split <;> rfl
    · show (s.hoist y).SameClaims ((s.releasedScope c).hoist y)
      rw [State.hoist_releasedScope, out]
      exact .same _
    · show (_ → ((s.releasedScope c).hoist y).Settled ∧ ((s.releasedScope c).hoist y).extent = []) ∧
        Block ((s.releasedScope c).hoist y).run
      rw [State.hoist_releasedScope, if_pos yin]
      refine ⟨fun x => ?_, trivial⟩
      obtain ⟨shut, none_⟩ := x.still (by rw [parked y yin]; decide) (by rw [parked y yin]; decide)
      exact ⟨.of_rest (fun _ => rfl) nofun nofun shut none_, none_⟩
    · change inRun ((s.releasedScope c).hoist a).run v = true at m
      rw [State.hoist_releasedScope, if_pos ain] at m
      cases m

end State.Keeps

/-! ### ADMIT_SCOPE -/

/-- What an operation on each hoist of a list in turn leaves of every hoist, where it keeps what it rests on. -/
theorem State.hoist_foldl {f : State → HoistId → State} {inv : State → Prop} {R : Hoist → Hoist → Prop}
    (keep : ∀ s h, inv s → inv (f s h)) (self : ∀ s h, inv s → R (s.hoist h) ((f s h).hoist h))
    (other : ∀ s h y, y ≠ h → (f s h).hoist y = s.hoist y) {hs : List HoistId} (nodup : hs.Nodup) {s : State}
    (ok : inv s) : inv (hs.foldl f s) ∧ ∀ y, (y ∈ hs → R (s.hoist y) ((hs.foldl f s).hoist y)) ∧
      (y ∉ hs → (hs.foldl f s).hoist y = s.hoist y) := by
  induction hs generalizing s with
  | nil => exact ⟨ok, fun y => ⟨nofun, fun _ => rfl⟩⟩
  | cons x xs ih =>
    obtain ⟨fresh, nodup⟩ := List.nodup_cons.1 nodup
    obtain ⟨ok', rest⟩ := ih nodup (keep s x ok)
    refine ⟨ok', fun y => ⟨fun m => ?_, fun m => ?_⟩⟩
    · rw [List.foldl_cons]
      by_cases e : y = x
      · subst e
        rw [(rest y).2 fresh]
        exact self s y ok
      · have := (rest y).1 ((List.mem_cons.1 m).resolve_left e)
        rwa [other s x y e] at this
    · rw [List.mem_cons, not_or] at m
      rw [List.foldl_cons, (rest y).2 m.2, other s x y m.1]

/-- The shaft map is as it was, but for the state of its compartments. -/
def State.SameTables (s t : State) : Prop :=
  t.shaft = s.shaft ∧ ∀ c, (t.comp c).committed = (s.comp c).committed

theorem State.SameTables.span {s t : State} (a : s.SameTables t) (r : Hoist) :
    t.spanZones (t.tableOf r) r = s.spanZones (s.tableOf r) r := by
  have table : t.tableOf r = s.tableOf r := by
    unfold State.tableOf
    cases r.config with
    | none => rfl
    | some k => exact a.2 k.compartment
  unfold State.spanZones
  rw [table, a.1]

/-- A hoist as an admission leaves it, as far as its claims go (R148). -/
structure State.Admitted (s : State) (r r' : Hoist) : Prop where
  config : r'.config = r.config
  state : r'.state = .parked
  run : r'.run = s.spanZones (s.tableOf r) r
  extent : r'.extent = []
  move : r'.move = r.move

/-- What a hoist is found to carry moves no claim. -/
theorem State.doubtCarried_spec (s : State) (h : HoistId) :
    s.SameTables (s.doubtCarried h) ∧ (∃ b, (s.doubtCarried h).hoist h = { s.hoist h with weighPending := b }) ∧
      ∀ y, y ≠ h → (s.doubtCarried h).hoist y = s.hoist y := by
  have pending : s.SameTables (s.setWeighPending h true) ∧
      (∃ b, (s.setWeighPending h true).hoist h = { s.hoist h with weighPending := b }) ∧
      ∀ y, y ≠ h → (s.setWeighPending h true).hoist y = s.hoist y :=
    ⟨⟨rfl, fun c => by cases c <;> rfl⟩, ⟨true, s.modHoist_hoist_self h _⟩, fun y ne => s.modHoist_hoist_ne ne _⟩
  unfold State.doubtCarried
  split
  · exact ⟨⟨rfl, fun _ => rfl⟩, ⟨_, rfl⟩, fun _ _ => rfl⟩
  · exact pending
  · exact pending

theorem State.admitHoist_spec (s : State) (h : HoistId) :
    s.SameTables (s.admitHoist h) ∧ s.Admitted (s.hoist h) ((s.admitHoist h).hoist h) ∧
      ∀ y, y ≠ h → (s.admitHoist h).hoist y = s.hoist y := by
  unfold State.admitHoist
  dsimp only
  generalize placed : (s.modHoist h fun r => { r with run := s.spanZones (s.tableOf r) r, extent := [] }).enter h .parked = t
  obtain ⟨⟨shaft, comp⟩, ⟨b, self⟩, other⟩ := t.doubtCarried_spec h
  subst placed
  refine ⟨⟨shaft, fun c => (comp c).trans (by cases c <;> rfl)⟩, ?_, fun y ne => ?_⟩
  · rw [self, State.enter_rest _ _ rfl, State.setHoist_hoist_self, State.modHoist_hoist_self]
    exact ⟨rfl, rfl, rfl, rfl, rfl⟩
  · rw [other y ne, State.hoist_enter_other _ ne, State.modHoist_hoist_ne _ ne]

theorem State.admitAll_spec (s : State) {hs : List HoistId} (nodup : hs.Nodup) (y : HoistId) :
    (y ∈ hs → s.Admitted (s.hoist y) ((hs.foldl (fun s h => s.admitHoist h) s).hoist y)) ∧
      (y ∉ hs → (hs.foldl (fun s h => s.admitHoist h) s).hoist y = s.hoist y) := by
  refine (State.hoist_foldl (inv := fun u => s.SameTables u) (fun u h ok => ?_) (fun u h ok => ?_)
    (fun u h => (u.admitHoist_spec h).2.2) nodup ⟨rfl, fun _ => rfl⟩).2 y
  · obtain ⟨⟨shaft, comp⟩, -, -⟩ := u.admitHoist_spec h
    exact ⟨shaft.trans ok.1, fun c => (comp c).trans (ok.2 c)⟩
  · obtain ⟨-, ⟨config, state, run, extent, move⟩, -⟩ := u.admitHoist_spec h
    exact ⟨config, state, run.trans (ok.span _), extent, move⟩

/-- A hoist out of supervision does not travel (R37). -/
theorem State.Following.out {s : State} (follows : s.Following) {h : HoistId} {c : Compartment}
    (inside : (s.hoist h).inCompartment c = true) (out : s.supervised c = false) :
    (s.hoist h).state.supervised = false := by
  obtain ⟨k, config, rfl⟩ := Hoist.inCompartment_iff.1 inside
  have := follows h
  unfold State.Follows at this
  rw [config] at this
  exact this.trans out

theorem Hoist.Settled.out {r : Hoist} (x : r.Settled) (out : r.state.supervised = false) :
    r.run = none ∧ r.moveOpen = false ∧ r.extent = [] := by
  obtain ⟨shut, none_⟩ := x.still (by rintro e; rw [e] at out; cases out) (by rintro e; rw [e] at out; cases out)
  exact ⟨x.outside out, shut, none_⟩

namespace State.Keeps

theorem markServing (s : State) (c : Compartment) : s.Keeps (s.markServing c) := by
  have slot : ∀ (s : State) (l : LandingId) (i : Nat), s.Keeps (s.markSlot l i) := by
    intro s l i
    unfold State.markSlot
    dsimp only
    split <;> exact hoists rfl
  exact fold _ (fun s l => fold _ (fun s i => slot s l i) _ s) _ s

theorem admitScope (s : State) (follows : s.Following) (b : Byte) : s.Keeps (s.admitScope b).1 := by
  unfold State.admitScope
  split
  · exact same s
  · rename_i c _
    refine check (same s) fun out => ?_
    rw [not_or, Bool.not_eq_true] at out
    split
    · exact same s
    · refine check (same s) fun _ => ?_
      split
      · exact same s
      · rename_i clear
        unfold State.accept State.bringUnder
        refine .andThen ?_ (markServing _ c)
        have hoist : ∀ y, (s.setScope c .supervised).hoist y = s.hoist y := fun y =>
          State.hoist_of_hoists (s.modComp_hoists c _) y
        have tables : s.SameTables (s.setScope c .supervised) := by cases c <;> exact ⟨rfl, fun d => by cases d <;> rfl⟩
        have all := (s.setScope c .supervised).admitAll_spec (s.hoistsOf_nodup c)
        have admitted : ∀ y, (s.hoist y).inCompartment c = true →
            (s.setScope c .supervised).Admitted (s.hoist y) (((s.hoistsOf c).foldl (fun s h => s.admitHoist h)
              (s.setScope c .supervised)).hoist y) := fun y yin => hoist y ▸ (all y).1 (State.mem_hoistsOf.2 yin)
        have others : ∀ y, (s.hoist y).inCompartment c = false → ((s.hoistsOf c).foldl (fun s h => s.admitHoist h)
            (s.setScope c .supervised)).hoist y = s.hoist y := fun y yout =>
          ((all y).2 fun m => by rw [State.mem_hoistsOf, yout] at m; cases m).trans (hoist y)
        have run : ∀ y, (s.hoist y).inCompartment c = true → (((s.hoistsOf c).foldl (fun s h => s.admitHoist h)
            (s.setScope c .supervised)).hoist y).run = s.spanZones (s.comp c).committed (s.hoist y) := by
          intro y yin
          obtain ⟨k, config, rfl⟩ := Hoist.inCompartment_iff.1 yin
          rw [(admitted y yin).run, tables.span]
          unfold State.tableOf
          rw [config]
        refine compartment (c := c) (fun y => ?_) (fun y yout => ?_) (fun y yin => ⟨fun x => ?_, ?_⟩)
          (fun a b v w ne ain bin mv mw => ?_)
        · cases yin : (s.hoist y).inCompartment c with
          | true => exact (admitted y yin).config
          | false => rw [others y yin]
        · rw [others y yout]
          exact .same _
        · obtain ⟨-, shut, -⟩ := x.out (follows.out yin out.1)
          obtain ⟨-, state, -, extent, move⟩ := admitted y yin
          refine ⟨.of_rest (fun o => ?_) (by rw [state]; decide) (by rw [state]; decide) ?_ extent, extent⟩
          · rw [state] at o
            cases o
          · unfold Hoist.moveOpen at shut ⊢
            rwa [move]
        · rw [run y yin]
          exact s.spanZones_block _ _
        · rw [run a ain] at mv
          rw [run b bin] at mw
          exact State.clear_of_conflictZone clear ne ain bin mv mw

end State.Keeps

/-! ### ZONE_COMMIT -/

namespace State.Keeps

theorem zoneCommit (s : State) (b : Byte) : s.Keeps (s.zoneCommit b).1 := by
  unfold State.zoneCommit
  split
  · exact same s
  · rename_i c _
    refine check (same s) fun calm => ?_
    split
    · exact same s
    · rename_i valid
      have fits : (s.comp c).shadow.count ≤ 48 := by
        by_contra more
        rw [State.tableFault_uncounted fun x => more x.2] at valid
        cases valid
      split
      · rename_i held
        split
        · exact same s
        · rename_i clear
          have parked : s.allParked c = true := by
            by_contra moving
            exact calm ⟨held, Bool.eq_false_iff.2 moving⟩
          have hoist : ∀ y, (s.commitShadow c).hoist y = s.hoist y := fun y =>
          State.hoist_of_hoists (s.modComp_hoists c _) y
          have parked' : (s.commitShadow c).allParked c = true := by
            rw [State.allParked_iff] at parked ⊢
            simpa only [hoist] using parked
          have table : ((s.commitShadow c).comp c).committed = (s.comp c).shadow.commitOver (s.comp c).committed := by
            unfold State.commitShadow
            rw [State.modComp_comp_self]
          have span : ∀ r, (s.commitShadow c).spanZones ((s.commitShadow c).comp c).committed r =
              s.spanZones (s.comp c).shadow r := by
            intro r
            rw [table, ← State.spanZones_commitOver s (s.comp c).committed r fits]
            unfold State.spanZones State.commitShadow
            rw [State.modComp_shaft]
          rw [State.setRunsToSpans_parked parked']
          refine compartment (c := c) (fun y => ?_) (fun y yout => ?_) (fun y yin => ?_)
            (fun a b v w ne ain bin mv mw => ?_)
          all_goals simp only [State.accept, State.hoist_mapHoists, hoist, span] at *
          · split <;> rfl
          · rw [yout]
            exact .same _
          · rw [if_pos yin]
            have parked := State.allParked_iff.1 parked y yin
            refine ⟨fun x => ?_, s.spanZones_block _ _⟩
            obtain ⟨shut, none_⟩ := x.still (by rw [parked]; decide) (by rw [parked]; decide)
            refine ⟨.of_still ?_ ?_ ?_ shut none_, none_⟩ <;> simp [Hoist.placed, parked, HoistState.supervised]
          · rw [if_pos ain] at mv
            rw [if_pos bin] at mw
            exact State.clear_of_conflictZone clear ne ain bin mv mw
      · exact hoists (s.modComp_hoists c _)

end State.Keeps

/-! ### HOIST_CONFIG -/

/-- The hoist that is configured, as far as its claims go. -/
theorem State.hoist_writeConfig_self (s : State) (h : HoistId) (k : HoistConfig) :
    ((s.writeConfig h k).hoist h).state = (s.comp k.compartment).state.hoistState ∧
      ((s.writeConfig h k).hoist h).run = (s.hoist h).run ∧ ((s.writeConfig h k).hoist h).extent = (s.hoist h).extent ∧
      ((s.writeConfig h k).hoist h).moveOpen = (s.hoist h).moveOpen := by
  unfold State.writeConfig
  dsimp only
  obtain ⟨down, up, e⟩ := State.hoist_enter_self (s.modHoist h _) h _
  rw [e, State.modHoist_hoist_self]
  split <;> exact ⟨rfl, rfl, rfl, rfl⟩

theorem State.hoist_writeConfig_other (s : State) {h y : HoistId} (ne : y ≠ h) (k : HoistConfig) :
    (s.writeConfig h k).hoist y = s.hoist y := by
  unfold State.writeConfig
  dsimp only
  rw [State.hoist_enter_other _ ne, State.modHoist_hoist_ne _ ne]

namespace State.Keeps

/-- A hoist that is configured outside supervision has no run before or after (R23, R37). -/
theorem writeConfig {s : State} {h : HoistId} {k : HoistConfig} (outside : (s.hoist h).state.supervised = false)
    (new : s.supervised k.compartment = false) : s.Keeps (s.writeConfig h k) := by
  have rest : (s.comp k.compartment).state.hoistState = .unconfigured ∨
      (s.comp k.compartment).state.hoistState = .releasedLocal := by
    unfold State.supervised at new
    cases e : (s.comp k.compartment).state with
    | unconfigured => exact .inl rfl
    | released => exact .inr rfl
    | supervised => rw [e] at new; cases new
  obtain ⟨state, run, extent, isOpen⟩ := s.hoist_writeConfig_self h k
  have other : ∀ y, y ≠ h → (s.writeConfig h k).hoist y = s.hoist y := fun y ne => s.hoist_writeConfig_other ne k
  intro x
  obtain ⟨empty, shut, none_⟩ := (x.settled h).out outside
  rw [empty] at run
  refine ⟨x.placed (fun y => y = h) (fun y ne => ?_) ?_ ?_ (fun y c z ne yin free => ?_),
    fun o a b c v w ain bin less mv mw => ?_⟩
  · rw [other y ne]
    exact .same _
  · rintro _ rfl
    refine ⟨.of_rest (fun _ => run) ?_ ?_ (isOpen.trans shut) (extent.trans none_), extent.trans none_, ?_⟩
    · rw [state]
      rcases rest with e | e <;> rw [e] <;> decide
    · rw [state]
      rcases rest with e | e <;> rw [e] <;> decide
    · rw [run]
      trivial
  · rintro _ b c z rfl _ _ _ m
    rw [run] at m
    cases m
  · rw [State.isFree_iff] at free ⊢
    intro v vin
    by_cases e : v = h
    · rw [e, empty]
      rfl
    · have := free v (by rwa [other v e])
      rwa [other v e] at this
  · have ne : ∀ y u, inRun ((s.writeConfig h k).hoist y).run u = true → y ≠ h := by
      rintro y u m rfl
      rw [run] at m
      cases m
    rw [other a (ne a v mv)] at ain less mv
    rw [other b (ne b w mw)] at bin less mw
    exact o a b c v w ain bin less mv mw

theorem hoistConfig (s : State) (follows : s.Following) (b : Byte) (p : HoistParams) : s.Keeps (s.hoistConfig b p).1 := by
  unfold State.hoistConfig
  split
  · exact same s
  · rename_i h _
    split
    · exact same s
    · refine check (same s) fun out => check (same s) fun _ => check (same s) fun _ => ?_
      rw [not_or, Bool.not_eq_true, Bool.not_eq_true] at out
      obtain ⟨former, new⟩ := out
      exact writeConfig ((follows h).trans former) new

end State.Keeps

end Sys2Proof.Machine
end

section
/-! ## O8: every step keeps the claims -/

namespace Sys2Proof.Machine

/-- What a frame in reception has no part in. -/
theorem State.Following.received {s : State} (follows : s.Following) : (s.received .uplink).Following := follows

/-! ### The starts -/

/-- The part with every hoist at its power-on value. -/
def State.Bare (t : State) : Prop := ∀ h, t.hoist h = Hoist.initial

theorem State.bare_of_hoists {t : State} {straps : Straps} (e : t.hoists = (State.powerOnWith straps).hoists) : t.Bare := by
  intro h
  unfold State.hoist
  rw [e]
  simp [State.powerOnWith]

theorem State.Bare.claimed {t : State} (bare : t.Bare) : t.Claimed ∧ t.Ranked := by
  refine ⟨⟨fun h => ?_, fun h => ?_, fun x y c z _ _ _ m => ?_, fun h k z _ head _ => ?_⟩, fun x y c v w _ _ _ m _ => ?_⟩
  · rw [bare]
    exact .of_rest (fun _ => rfl) nofun nofun rfl rfl
  · rw [bare]
    exact rfl
  · rw [bare] at m
    cases m
  · rw [bare] at head
    cases head
  · rw [bare] at m
    cases m

namespace State.Keeps

theorem bare (s : State) {t : State} (b : t.Bare) : s.Keeps t := fun _ => ⟨b.claimed.1, fun _ => b.claimed.2⟩

/-! ### The shared form -/

theorem event {s t : State} {f : State → State} (k : s.Keeps (f s)) (e : Machine.event s f = .next t) : s.Keeps t := by
  cases held : s.resetInput with
  | true =>
    rw [event_held s f held] at e
    cases e
    exact same s
  | false =>
    rw [event_free s f held] at e
    cases e
    exact k

theorem received (s : State) (p : Port) : s.Keeps (s.received p) := by cases p <;> exact hoists rfl

theorem dropOrder (s : State) (o : OrderHead) : s.Keeps (s.dropOrder o) := by
  unfold State.dropOrder
  split <;> exact hoists rfl

theorem order {s t : State} {o : OrderHead} {code : Byte} {body : State → State × Reply}
    (k : (s.received .uplink).Keeps (body (s.received .uplink)).1) (e : Machine.order s o code body = .next t) :
    s.Keeps t := by
  refine event (f := fun s => s.takeOrder o code body) ?_ e
  unfold State.takeOrder
  dsimp only
  split
  · exact (received s .uplink).andThen (k.andThen (hoists rfl))
  · exact (received s .uplink).andThen (dropOrder _ o)

/-- An order that every state keeps its claims in. -/
theorem anyOrder {s t : State} {o : OrderHead} {code : Byte} {body : State → State × Reply}
    (k : ∀ s : State, s.Keeps (body s).1) (e : Machine.order s o code body = .next t) : s.Keeps t :=
  order (k _) e

/-! ### Queries -/

theorem zoneQuery (s : State) (b table : Byte) (i : Nat) : s.Keeps (s.zoneQuery b table i).1 := by
  unfold State.zoneQuery
  repeat' split
  all_goals exact same s

theorem hoistQuery (s : State) (b : Byte) : s.Keeps (s.hoistQuery b).1 := by
  unfold State.hoistQuery
  split <;> exact same s

theorem landingQuery (s : State) (b : Byte) : s.Keeps (s.landingQuery b).1 := by
  unfold State.landingQuery
  split <;> exact same s

theorem massQuery (s : State) (b : Byte) : s.Keeps (s.massQuery b).1 := by
  unfold State.massQuery
  split <;> exact same s

theorem maskWrite (s : State) (set : Half) : s.Keeps (s.maskWrite set).1 := by
  unfold State.maskWrite
  exact check (hoists rfl) fun _ => same s

/-! ### Events -/

section Events

variable {s t : State}

theorem frameDropped {p : Port} {f : Frame} (e : execFrameDropped p f s = .next t) : s.Keeps t := by
  refine event ?_ e
  split
  · exact (received s p).andThen (hoists rfl)
  · exact same s
  · exact same s

theorem framePassThrough {p : Port} {f : Frame} (e : execFramePassThrough p f s = .next t) : s.Keeps t := by
  refine event ?_ e
  split
  · exact (received s p).andThen (give _ _ _)
  · exact same s
  · exact same s

theorem demand {a m : Byte} {v : Half} (e : execDemand a m v s = .next t) : s.Keeps t := by
  refine event ((received s .uplink).andThen ?_) e
  dsimp only
  split
  · exact hoists rfl
  · split
    · exact (superviseDemand _ _ _).andThen (restartDemandTimer _ _)
    · exact hoists rfl

theorem report {a : Byte} {w : ReportWire} (e : execReport a w s = .next t) : s.Keeps t := by
  refine event ((received s .field).andThen ?_) e
  dsimp only
  split
  · exact hoists rfl
  · split
    · exact (reportPath _ _ _).andThen (give _ _ _)
    · exact give _ _ _

theorem shuttleReport {a : Byte} {w : ShuttleWire} (e : execShuttleReport a w s = .next t) : s.Keeps t := by
  refine event ((received s .field).andThen ?_) e
  dsimp only
  split
  · exact hoists rfl
  · split
    · exact hoists rfl
    · exact (shuttlePath _ _ _).andThen (give _ _ _)

theorem handoverTimerExpiry {h : HoistId} (e : execHandoverTimerExpiry h s = .next t) : s.Keeps t := by
  refine event ?_ e
  split
  · exact expiry s _ _ (handoverTimeout s _ _)
  · exact same s

theorem partialFrameDiscard {p : Port} (e : execPartialFrameDiscard p s = .next t) : s.Keeps t := by
  refine event ?_ e
  cases p <;> exact hoists rfl

theorem surveyTimerExpiry {l : LandingId} (e : execSurveyTimerExpiry l s = .next t) : s.Keeps t := by
  refine event ?_ e
  exact expiry s _ _ (surveyFailure s l)

theorem reportAgeExpiry {h : HoistId} (e : execReportAgeExpiry h s = .next t) : s.Keeps t := by
  refine event ?_ e
  exact expiry s _ _ (lapse s h)

theorem demandAgeExpiry {h : HoistId} (e : execDemandAgeExpiry h s = .next t) : s.Keeps t := by
  refine event ?_ e
  split
  · exact takeSecond s h
  · exact expiry s _ _ ((((actOnStale s h).andThen (latch _ _)).andThen (superviseDemand _ h 0)).andThen
      (restartDemandTimer _ h))

theorem engageTimeout {h : HoistId} (e : execEngageTimeout h s = .next t) : s.Keeps t := by
  refine event ?_ e
  split
  · rename_i engaging
    exact expiry s _ _ ((enter (by rw [engaging]; decide) (by rw [engaging]; decide) rfl (by decide) (by decide)).andThen
      (latch _ _))
  · exact same s

theorem parkTimeout {h : HoistId} (e : execParkTimeout h s = .next t) : s.Keeps t := by
  refine event ?_ e
  split
  · exact takeSecond s h
  · split
    · exact expiry s _ _ (trip s h .parkFail)
    · exact same s

theorem proofTimerExpiry {h : HoistId} (e : execProofTimerExpiry h s = .next t) : s.Keeps t := by
  refine event ?_ e
  split
  · rename_i proving
    exact expiry s _ _ ((enter (by rw [proving]; decide) (by rw [proving]; decide) rfl (by decide) (by decide)).andThen
      (latch _ _))
  · exact same s

theorem secondTick (e : execSecondTick s = .next t) : s.Keeps t := by
  refine event ?_ e
  exact .andThen (t := { s with
    seconds := nextSeconds s.seconds, now := max s.now s.nextSecond, nextSecond := s.nextSecond + 1000 }) (hoists rfl)
      (evaluateAll _)

theorem unknownOrder {o : OrderHead} {code : Byte} {ps : List Byte} (e : execUnknownOrder o code ps s = .next t) :
    s.Keeps t := by
  refine event ?_ e
  split
  · refine (received s .uplink).andThen ?_
    dsimp only
    split
    · exact hoists rfl
    · exact dropOrder _ o
  · exact same s

theorem orderDropped {o : OrderHead} {code : Byte} {ps : List Byte} (e : execOrderDropped o code ps s = .next t) :
    s.Keeps t := by
  refine event ?_ e
  split
  · exact same s
  · exact (received s .uplink).andThen (dropOrder _ o)

theorem allStop {o : OrderHead} (e : execAllStop o s = .next t) : s.Keeps t := by
  unfold execAllStop at e
  split at e
  · exact event ((received s .uplink).andThen (stopAll _ _)) e
  · exact anyOrder (fun s => stopAll s _) e

theorem landingWriteOrder {o : OrderHead} {l : Byte} {d : Word} {n m x y : Byte}
    (e : execLandingWrite o l d n m x y s = .next t) : s.Keeps t :=
  anyOrder (fun s => check (landingRemove s l) fun _ => landingWrite s _ _ _ _ _ _) e

theorem restart {o : OrderHead} {straps : Straps} (e : execRestart o straps s = .next t) : s.Keeps t := by
  refine event ((received s .uplink).andThen ?_) e
  dsimp only
  split
  · exact bare _ (State.bare_of_hoists (straps := straps) rfl)
  · exact dropOrder _ o

theorem resetInputRelease {straps : Straps} (e : execResetInputRelease straps s = .next t) : s.Keeps t := by
  cases e
  split
  · exact bare s (State.bare_of_hoists (straps := straps) rfl)
  · exact same s

end Events

/-! ### Every command -/

theorem command (i : Instr) {s t : State} (follows : s.Following) (e : exec i s = .next t) : s.Keeps t := by
  cases i with
  | powerOn x => cases e; exact bare s (State.bare_of_hoists (straps := x) rfl)
  | resetInputAssert => cases e; exact bare s (State.bare_of_hoists (straps := s.strapPins) rfl)
  | resetInputRelease x => exact resetInputRelease e
  | restart o x => exact restart e
  | partialFrameDiscard p => exact partialFrameDiscard e
  | frameDropped p f => exact frameDropped e
  | framePassThrough p f => exact framePassThrough e
  | demand a m v => exact demand (m := m) e
  | report a w => exact report e
  | shuttleReport a w => exact shuttleReport e
  | handoverTimerExpiry h => exact handoverTimerExpiry e
  | surveyTimerExpiry l => exact surveyTimerExpiry e
  | reportAgeExpiry h => exact reportAgeExpiry e
  | demandAgeExpiry h => exact demandAgeExpiry e
  | engageTimeout h => exact engageTimeout e
  | parkTimeout h => exact parkTimeout e
  | proofTimerExpiry h => exact proofTimerExpiry e
  | secondTick => exact secondTick e
  | unknownOrder o c ps => exact unknownOrder e
  | orderDropped o c ps => exact orderDropped e
  | shaftWrite o => exact anyOrder (fun s => shaftWrite s _ _ _ _) e
  | zoneWriteEntry o => exact anyOrder (fun s => zoneWriteEntry s _ _ _ _ _ _) e
  | zoneWriteCount o => exact anyOrder (fun s => zoneWriteCount s _ _) e
  | zoneCommit o => exact anyOrder (fun s => zoneCommit s _) e
  | zoneQuery o => exact anyOrder (fun s => zoneQuery s _ _ _) e
  | landingWrite o => exact landingWriteOrder e
  | landingRemove o => exact anyOrder (fun s => landingRemove s _) e
  | hoistConfig o => exact order (hoistConfig _ follows.received _ _) e
  | hoistQuery o => exact anyOrder (fun s => hoistQuery s _) e
  | engage o => exact anyOrder (fun s => engage s _) e
  | park o => exact anyOrder (fun s => park s _) e
  | move o => exact anyOrder (fun s => move s _ _ _) e
  | abort o => exact anyOrder (fun s => abort s _) e
  | resetHoist o => exact anyOrder (fun s => resetHoist s _) e
  | ceiling o => exact anyOrder (fun s => ceiling s _ _) e
  | groupWrite o => exact anyOrder (fun s => groupWrite s _ _) e
  | groupCeiling o => exact anyOrder (fun s => groupCeiling s _ _) e
  | groupStop o => exact anyOrder (fun s => groupStop s _) e
  | allStop o => exact allStop e
  | transfer o => exact anyOrder (fun s => transfer s _ _ _ _) e
  | abortTransfer o => exact anyOrder (fun s => abortTransfer s _) e
  | resolve o => exact anyOrder (fun s => resolve s _ _) e
  | blockSlot o => exact anyOrder (fun s => blockSlot s _ _) e
  | unblockSlot o => exact anyOrder (fun s => unblockSlot s _ _) e
  | landingQuery o => exact anyOrder (fun s => landingQuery s _) e
  | declareMass o => exact anyOrder (fun s => declareMass s _ _ _ _ _) e
  | removeMass o => exact anyOrder (fun s => removeMass s _) e
  | verify o => exact anyOrder (fun s => verify s _) e
  | releaseScope o => exact anyOrder (fun s => releaseScope s _) e
  | admitScope o => exact order (admitScope _ follows.received _) e
  | massQuery o => exact anyOrder (fun s => massQuery s _) e
  | tallyQuery o => exact anyOrder (fun s => same s) e
  | prove o => exact anyOrder (fun s => prove s _) e
  | proofWrite o => exact anyOrder (fun s => proofWrite s _ _) e
  | maskWrite o => exact anyOrder (fun s => maskWrite s _) e
  | scopeOptions o => exact anyOrder (fun s => scopeOptions s _ _ _) e
  | status o => exact anyOrder (fun s => status s) e
  | readRecord o => exact anyOrder (fun s => readRecord s) e
  | logControl o => exact anyOrder (fun s => logControl s _) e
  | timerWrite o => exact anyOrder (fun s => timerWrite s _) e

end State.Keeps

theorem step_keeps {s t : State} (follows : s.Following) (e : step s = .next t) : s.Keeps t := by
  unfold step at e
  split at e
  · cases e
    unfold State.tick
    split
    · exact .same s
    · exact .hoists rfl
  · rename_i rest _
    exact .andThen (t := { s with pending := rest }) (.hoists rfl) (.command _ follows e)

/-- Settles O8: `State.Keeps.command` takes the commands one by one, from what each operation on the runs keeps. -/
theorem claimsKeptByEveryStep : Obligations.ClaimsKeptByEveryStep := by
  intro s t follows sound e
  have claimed := State.claimsSound_iff.1 sound
  obtain ⟨after, ranked⟩ := step_keeps follows e claimed
  exact ⟨State.claimsSound_iff.2 after,
    fun o => (State.rankOrder_iff after).2 (ranked ((State.rankOrder_iff claimed).1 o))⟩

end Sys2Proof.Machine
end

section
/-! ## O38: ENGAGE and PARK -/

namespace Sys2Proof.Machine

/-! ### The hoist an order names -/

theorem State.configuredHoist_eq {s : State} {b : Byte} {h : HoistId} {k : HoistConfig} (number : b.toNat = h.val + 1)
    (config : (s.hoist h).config = some k) : s.configuredHoist b = some h := by
  unfold State.configuredHoist hoistOf
  rw [numbered_eq_some number]
  exact if_pos (by unfold Hoist.configured; rw [config]; rfl)

theorem State.configuredHoist_none {s : State} {b : Byte}
    (none_ : ∀ h : HoistId, b.toNat = h.val + 1 → (s.hoist h).config = none) : s.configuredHoist b = none := by
  unfold State.configuredHoist hoistOf
  split
  · rename_i h found
    refine if_neg ?_
    unfold numbered at found
    split at found
    · rename_i range
      cases found
      unfold Hoist.configured
      rw [none_ _ (Nat.sub_add_cancel range.1).symm]
      exact Bool.false_ne_true
    · cases found
  · rfl

/-! ### The orders -/

section

variable {s : State} {b : Byte} {h : HoistId}

theorem State.engage_none (none_ : s.configuredHoist b = none) : s.engage b = s.refuse .target := by
  unfold State.engage
  rw [none_]

theorem State.park_none (none_ : s.configuredHoist b = none) : s.park b = s.refuse .target := by
  unfold State.park
  rw [none_]

variable (found : s.configuredHoist b = some h)

include found

theorem State.engage_some : s.engage b =
    if (s.hoist h).state ≠ .parked ∨ (s.hoist h).freshness ≠ .fresh then s.refuse .state
    else if (s.hoist h).proofStatus = .lapsed then s.refuse .proof
    else State.accept (s.setHoist h ((s.hoist h).atState s.now s.timers .engaging)) := by
  unfold State.engage
  rw [found, ← State.enter_rest s h rfl]
  dsimp only
  by_cases parked : (s.hoist h).state = .parked <;> simp [parked]

theorem State.park_some : s.park b =
    if (s.hoist h).state = .ready ∨ (s.hoist h).state = .engaging then
      State.accept (s.setHoist h ((s.hoist h).atState s.now s.timers .parking))
    else s.refuse .state := by
  unfold State.park
  rw [found, ← State.enter_rest s h rfl]

end

/-- Settles O38: each order by its checks, and what entering ENGAGING and PARKING makes of a hoist. -/
theorem engageAndPark : Obligations.EngageAndPark := by
  intro o b s takes
  refine ⟨fun none_ => ?_, fun h k number config => ?_⟩
  · have none_ : (s.received .uplink).configuredHoist b = none := State.configuredHoist_none none_
    exact ⟨order_answered takes (State.engage_none none_), order_answered takes (State.park_none none_)⟩
  · have found : (s.received .uplink).configuredHoist b = some h := State.configuredHoist_eq number config
    refine ⟨fun parked fresh proof => ?_, fun unfit => ?_, fun parked fresh lapsed => ?_, fun free => ?_, fun a b => ?_⟩
    · have watched : (s.hoist h).state.watched = false := by rw [parked]; rfl
      have entered : (s.hoist h).atState s.now s.timers .engaging =
          { (s.hoist h).atRest .parked with
            engageTimer := some (s.now + 1000 * s.timers.engageLimit)
            state := .engaging
            demandTimer := some (s.now + s.timers.staleLimit) } := by
        unfold Hoist.atState Hoist.inState
        simp only [watched]
        rfl
      rw [← entered]
      exact order_answered takes ((State.engage_some found).trans
        ((if_neg (not_or.2 ⟨not_not.2 parked, not_not.2 fresh⟩)).trans (if_neg proof)))
    · exact order_answered takes ((State.engage_some found).trans (if_pos unfit))
    · exact order_answered takes ((State.engage_some found).trans
        ((if_neg (not_or.2 ⟨not_not.2 parked, not_not.2 fresh⟩)).trans (if_pos lapsed)))
    · exact order_answered takes ((State.park_some found).trans (if_pos free))
    · exact order_answered takes ((State.park_some found).trans (if_neg (not_or.2 ⟨a, b⟩)))

end Sys2Proof.Machine
end

section
/-! ## O41: ABORT, GROUP_STOP and ALL_STOP -/

namespace Sys2Proof.Machine

/-- A stop of the hoists named: each that MOVES is STOPPING, and nothing else changes (R48, R59). -/
theorem State.stopAll_stops {s : State} {hs : List HoistId} {named : HoistId → Prop} (names : ∀ h, h ∈ hs ↔ named h) :
    (∀ h, named h → (s.hoist h).state = .moving → (s.stopAll hs).hoist h = (s.hoist h).stopped .stopped) ∧
      (∀ h, ¬(named h ∧ (s.hoist h).state = .moving) → (s.stopAll hs).hoist h = s.hoist h) ∧
      s.stopAll hs = { s with hoists := (s.stopAll hs).hoists } := by
  rw [State.stopAll_eq]
  refine ⟨fun h n moving => ?_, fun h still => ?_, rfl⟩
  · rw [State.hoist_mapHoists]
    exact if_pos ⟨(names h).2 n, moving⟩
  · rw [State.hoist_mapHoists]
    exact if_neg fun x => still ⟨(names h).1 x.1, x.2⟩

theorem State.stopAll_received (s : State) (hs : List HoistId) :
    (s.received .uplink).stopAll hs = (s.stopAll hs).received .uplink := by
  rw [State.stopAll_eq, State.stopAll_eq]
  rfl

theorem State.groupStop_received {s : State} {b : Byte} {g : GroupId} (number : b.toNat = g.val + 1) :
    (s.received .uplink).groupStop b = ((s.stopAll (s.members g)).received .uplink, ⟨.accepted,
      (allHoists.filter fun h => (s.group g).getLsbD h.val && (s.hoist h).state == .moving).length, []⟩) := by
  have count : s.countMoving (s.members g) =
      (allHoists.filter fun h => (s.group g).getLsbD h.val && (s.hoist h).state == .moving).length := by
    unfold State.countMoving State.members
    rw [List.filter_filter]
    simp only [Bool.and_comm]
  unfold State.groupStop groupOf
  rw [numbered_eq_some number, ← count, ← State.stopAll_received]
  rfl

theorem State.allStop_received (s : State) :
    (s.received .uplink).allStop = ((s.stopAll allHoists).received .uplink, ⟨.accepted,
      (allHoists.filter fun h => (s.hoist h).state == .moving).length, []⟩) := by
  unfold State.allStop
  rw [State.stopAll_received]
  rfl

/-- No station is addressed by broadcast (R179). -/
theorem State.Takes.not_broadcast {s : State} {o : OrderHead} (takes : s.Takes o) : o.address ≠ broadcast := by
  intro broad
  have own := takes.2
  unfold State.consumes ownStation at own
  split at own
  · cases own
  · rename_i live
    rw [beq_iff_eq, Option.some.injEq, broad] at own
    refine live (.inr (BitVec.eq_of_toNat_eq ?_))
    have station : s.strapAddress.toNat % 256 = 63 := by
      rw [← BitVec.toNat_setWidth 8, own]
      rfl
    have small := s.strapAddress.isLt
    show s.strapAddress.toNat = 63
    omega

theorem State.mem_members {s : State} {g : GroupId} {h : HoistId} :
    h ∈ s.members g ↔ (s.group g).getLsbD h.val = true := by
  simp [State.members, mem_allHoists]

section

variable {s : State} {b : Byte} {h : HoistId} (found : s.configuredHoist b = some h)

include found

theorem State.abort_some : s.abort b =
    if (s.hoist h).state = .moving then State.accept (s.setHoist h ((s.hoist h).stopped .stopped))
    else if (s.hoist h).state = .stopping then s.accept
    else s.refuse .state := by
  unfold State.abort
  rw [found]
  dsimp only
  by_cases moving : (s.hoist h).state = .moving
  · rw [if_pos moving, if_pos moving, State.stopHoist_moving moving]
  · rw [if_neg moving, if_neg moving]

end

/-- Settles O41: a stop of several hoists is one change of each that MOVES (`State.stopAll_eq`). -/
theorem stopOrders : Obligations.StopOrders := by
  intro o b s
  refine ⟨fun takes h k number config => ?_, fun takes g number => ?_, fun takes => ?_, fun free broad => ?_⟩
  · have found : (s.received .uplink).configuredHoist b = some h := State.configuredHoist_eq number config
    refine ⟨fun moving => ?_, fun stopping => ?_, fun still running => ?_⟩
    · exact order_answered takes ((State.abort_some found).trans (if_pos moving))
    · have still : (s.hoist h).state ≠ .moving := by rw [stopping]; decide
      exact order_answered takes ((State.abort_some found).trans ((if_neg still).trans (if_pos stopping)))
    · exact order_answered takes ((State.abort_some found).trans ((if_neg still).trans (if_neg running)))
  · exact ⟨s.stopAll (s.members g), State.stopAll_stops fun h => State.mem_members,
      order_answered takes (State.groupStop_received number)⟩
  · refine ⟨s.stopAll allHoists, State.stopAll_stops fun h => iff_of_true (mem_allHoists h) trivial, ?_⟩
    exact (if_neg takes.not_broadcast).trans (order_answered takes s.allStop_received)
  · refine ⟨s.stopAll allHoists, State.stopAll_stops fun h => iff_of_true (mem_allHoists h) trivial, ?_⟩
    refine (if_pos broad).trans ((event_free s _ free).trans ?_)
    rw [State.allStop_received]
    rfl

end Sys2Proof.Machine
end

section
/-! ## O43: CEILING, GROUP_CEILING and GROUP_WRITE -/

namespace Sys2Proof.Machine

/-! ### The envelope -/

/-- The envelope rests on no hoist's record but the one it is of, nor on the envelope held there. -/
theorem State.HoistsAlone.envelope {s t : State} (a : s.HoistsAlone t) (r : Hoist) (d : Direction) :
    t.envelope r d = s.envelope r d := by
  unfold State.HoistsAlone at a
  rw [a]
  rfl

/-- A hoist with the envelope that a state gives it (R91). -/
def Hoist.enveloped (r : Hoist) (s : State) : Hoist :=
  { r with envDown := s.envelope r .down, envUp := s.envelope r .up }

theorem State.hoist_recompute_enveloped (s : State) (h : HoistId) :
    (s.recompute h).hoist h = (s.hoist h).enveloped s := by
  rw [State.hoist_recompute, if_pos rfl]
  rfl

/-- An envelope recomputed is that of the hoist it leaves. -/
theorem Hoist.enveloped_eq {s t : State} (a : s.HoistsAlone t) {r r' : Hoist} (e : r' = r.enveloped s) :
    r' = { r with envDown := t.envelope r' .down, envUp := t.envelope r' .up } := by
  rw [a.envelope, a.envelope, e]
  rfl

/-! ### Ceilings -/

/-- A hoist with a profile ceiling written (R58). -/
def Hoist.ceiled (r : Hoist) (v : Nat) : Hoist := { r with profileCeiling := min 20000 v }

theorem State.hoist_writeCeiling_self (s : State) (h : HoistId) (v : Nat) :
    (s.writeCeiling h v).hoist h = ((s.hoist h).ceiled v).enveloped s := by
  unfold State.writeCeiling
  rw [State.hoist_recompute_enveloped, State.modHoist_hoist_self]
  rfl

theorem State.hoist_writeCeiling_other (s : State) {h y : HoistId} (ne : y ≠ h) (v : Nat) :
    (s.writeCeiling h v).hoist y = s.hoist y := by
  unfold State.writeCeiling
  rw [State.hoist_recompute_other _ ne, State.modHoist_hoist_ne _ ne]

theorem State.writeCeiling_alone (s : State) (h : HoistId) (v : Nat) : s.HoistsAlone (s.writeCeiling h v) := rfl

theorem State.writeCeiling_set (s : State) (h : HoistId) (v : Nat) :
    s.writeCeiling h v = s.setHoist h ((s.writeCeiling h v).hoist h) := by
  rw [State.hoist_writeCeiling_self]
  unfold State.writeCeiling State.recompute State.modHoist
  rw [State.setHoist_setHoist, State.setHoist_hoist_self]
  rfl

/-- The ceilings of several hoists, written in turn. -/
def State.writeCeilings (s : State) (hs : List HoistId) (v : Nat) : State :=
  hs.foldl (fun s h => s.writeCeiling h v) s

theorem State.writeCeilings_received (s : State) (hs : List HoistId) (v : Nat) :
    (s.received .uplink).writeCeilings hs v = (s.writeCeilings hs v).received .uplink := by
  induction hs generalizing s with
  | nil => rfl
  | cons h hs ih => exact ih (s.writeCeiling h v)

theorem State.writeCeilings_spec (s : State) {hs : List HoistId} (nodup : hs.Nodup) (v : Nat) :
    s.HoistsAlone (s.writeCeilings hs v) ∧ ∀ y,
      (y ∈ hs → (s.writeCeilings hs v).hoist y = ((s.hoist y).ceiled v).enveloped s) ∧
        (y ∉ hs → (s.writeCeilings hs v).hoist y = s.hoist y) := by
  refine State.hoist_foldl (inv := s.HoistsAlone) (R := fun r r' => r' = (r.ceiled v).enveloped s)
    (fun u h ok => ok.trans (u.writeCeiling_alone h v)) (fun u h ok => ?_)
    (fun u h y ne => u.hoist_writeCeiling_other ne v) nodup rfl
  rw [State.hoist_writeCeiling_self]
  unfold Hoist.enveloped
  rw [ok.envelope, ok.envelope]

theorem State.ceiling_eq {s : State} {b : Byte} {h : HoistId} (number : b.toNat = h.val + 1) (v : Nat) :
    s.ceiling b v = if (s.hoist h).configured = true then (s.writeCeiling h v).accept else s.refuse .state := by
  unfold State.ceiling hoistOf
  rw [numbered_eq_some number]

theorem State.groupCeiling_received (s : State) {b : Byte} {g : GroupId} (number : b.toNat = g.val + 1) (v : Nat) :
    let hs := allHoists.filter fun h => (s.group g).getLsbD h.val && (s.hoist h).configured
    (s.received .uplink).groupCeiling b v = ((s.writeCeilings hs v).received .uplink, ⟨.accepted, hs.length, []⟩) := by
  intro hs
  have members : ((s.members g).filter fun h => (s.hoist h).configured) = hs := by
    unfold State.members
    rw [List.filter_filter]
    simp only [Bool.and_comm, hs]
  unfold State.groupCeiling groupOf
  rw [numbered_eq_some number, ← State.writeCeilings_received, ← members]
  rfl

theorem State.groupWrite_eq {s : State} {b set : Byte} {g : GroupId} (number : b.toNat = g.val + 1) :
    s.groupWrite b set = if set.toNat < 64 then (s.setGroup g (set.setWidth 6)).accept else s.refuse .target := by
  unfold State.groupWrite groupOf
  rw [numbered_eq_some number]

/-- Settles O43: what a ceiling makes of one hoist, and that one written after another leave the rest alone. -/
theorem ceilingsAndGroupsAreWritten : Obligations.CeilingsAndGroupsAreWritten := by
  intro o b set v s takes
  refine ⟨fun h number => ⟨fun none_ => ?_, fun k config => ?_⟩, fun g number => ?_, fun out => ?_, fun out => ?_,
    fun g number fits => ?_, fun out => ?_⟩
  · refine order_answered takes ((State.ceiling_eq number _).trans (if_neg ?_))
    show ¬(s.hoist h).config.isSome = true
    rw [none_]
    exact Bool.false_ne_true
  · refine ⟨s.writeCeiling h v.toNat, order_answered takes ((State.ceiling_eq number _).trans (if_pos ?_)),
      Hoist.enveloped_eq (s.writeCeiling_alone h _) (s.hoist_writeCeiling_self h _), s.writeCeiling_set h _⟩
    show (s.hoist h).config.isSome = true
    rw [config]
    rfl
  · have nodup : (allHoists.filter fun h => (s.group g).getLsbD h.val && (s.hoist h).configured).Nodup :=
      List.Nodup.filter _ (by decide)
    obtain ⟨alone, each⟩ := s.writeCeilings_spec nodup v.toNat
    refine ⟨_, order_answered takes (s.groupCeiling_received number v.toNat), fun h member configured => ?_,
      fun h not => ?_, alone⟩
    · exact Hoist.enveloped_eq alone ((each h).1 (List.mem_filter.2 ⟨mem_allHoists h, by simp [member, configured]⟩))
    · refine (each h).2 fun m => not ?_
      simpa using (List.mem_filter.1 m).2
  · refine order_answered takes ?_
    unfold State.ceiling hoistOf
    rw [numbered_eq_none out]
    rfl
  · refine order_answered takes ?_
    unfold State.groupCeiling groupOf
    rw [numbered_eq_none out]
    rfl
  · refine ⟨s.setGroup g (set.setWidth 6), order_answered takes ((State.groupWrite_eq number).trans (if_pos fits)),
      fun h => ?_, fun x ne => s.setGroup_group_ne ne _, rfl⟩
    rw [State.setGroup_group_self, BitVec.getLsbD_setWidth]
    simp [h.isLt]
  · refine order_answered takes ?_
    by_cases group : b.toNat = 0 ∨ 4 < b.toNat
    · unfold State.groupWrite groupOf
      rw [numbered_eq_none group]
      rfl
    · have number : b.toNat = (⟨b.toNat - 1, by omega⟩ : GroupId).val + 1 := by show _ = b.toNat - 1 + 1; omega
      exact (State.groupWrite_eq number).trans (if_neg (by omega))

end Sys2Proof.Machine
end

section
/-! ## O50 and O42: RELEASE_SCOPE and RESET_HOIST -/

namespace Sys2Proof.Machine

/-! ### RELEASE_SCOPE -/

/-- The landings that serve a compartment are at rest (R146, check 3). -/
theorem State.anyServing_busy {s : State} {c : Compartment} :
    s.anyServing c (fun x => !x.queue.isEmpty || x.survey) = false ↔
      ∀ l rec, (s.landing l).record = some rec → rec.serves c = true →
        (s.landing l).queue = [] ∧ (s.landing l).survey = false := by
  unfold State.anyServing
  rw [List.any_eq_false]
  have serving : ∀ l, s.landingServes l c = true ↔ ∃ rec, (s.landing l).record = some rec ∧ rec.serves c = true :=
    fun l => State.landingServes_iff
  refine ⟨fun rest l rec e serves => ?_, fun rest l _ => ?_⟩
  · have := rest l (mem_allLandings l)
    rw [(serving l).2 ⟨rec, e, serves⟩] at this
    simpa using this
  · rw [Bool.and_eq_true]
    rintro ⟨serves, busy⟩
    obtain ⟨rec, e, serves⟩ := (serving l).1 serves
    obtain ⟨queue, survey⟩ := rest l rec e serves
    simp [queue, survey] at busy

theorem State.releaseScope_eq {s : State} {b : Byte} {c : Compartment} (comp : b.toNat = c.code) :
    s.releaseScope b =
      if s.supervised c = false then s.refuse .scope
      else if s.allParked c = false then s.refuse .state
      else if s.anyServing c (fun x => !x.queue.isEmpty || x.survey) = true then s.refuse .busy
      else (s.releasedScope c).accept := by
  unfold State.releaseScope
  rw [compartmentOf_eq_some comp, ← State.releaseAll_eq]
  rfl

theorem State.releasedScope_received (s : State) (c : Compartment) :
    (s.received .uplink).releasedScope c = (s.releasedScope c).received .uplink := by
  cases c <;> rfl

theorem State.releasedScope_comp (s : State) (c : Compartment) :
    (s.releasedScope c).comp c = { s.comp c with state := .released } := by
  cases c <;> rfl

theorem State.releasedScope_comp_ne (s : State) {c d : Compartment} (ne : d ≠ c) :
    (s.releasedScope c).comp d = s.comp d := by
  cases c <;> cases d
  · exact absurd rfl ne
  · rfl
  · rfl
  · exact absurd rfl ne

theorem State.releasedScope_holder (s : State) (c : Compartment) (z : Nat) : (s.releasedScope c).holder c z = none := by
  rw [Option.eq_none_iff_forall_ne_some]
  intro x e
  obtain ⟨inside, held⟩ := State.holder_spec e
  rw [State.hoist_releasedScope] at inside held
  split at held
  · cases held
  · rename_i out
    rw [if_neg out] at inside
    exact out inside

/-- Settles O50: the releases of the hoists are one change of each (`State.releaseAll_eq`). -/
theorem releaseScopeFreesZones : Obligations.ReleaseScopeFreesZones := by
  intro o b c s takes comp
  have calm : (s.received .uplink).allParked c = true ↔
      ∀ h, (s.hoist h).inCompartment c = true → (s.hoist h).state = .parked := State.allParked_iff (s := s)
  have quiet : (s.received .uplink).anyServing c (fun x => !x.queue.isEmpty || x.survey) = false ↔ _ :=
    State.anyServing_busy (s := s)
  have held : (s.received .uplink).supervised c = true ↔ (s.comp c).state = .supervised := State.supervised_iff (s := s)
  have eq := State.releaseScope_eq (s := s.received .uplink) comp
  refine ⟨fun out => ?_, fun in_ moving => ?_, fun in_ parked busy => ?_, fun in_ parked rest => ?_⟩
  · exact order_answered takes (eq.trans (if_pos (Bool.eq_false_iff.2 fun x => out (held.1 x))))
  · rw [← held] at in_
    rw [← calm, Bool.not_eq_true] at moving
    exact order_answered takes (eq.trans ((if_neg (by rw [in_]; decide)).trans (if_pos moving)))
  · rw [← held] at in_
    rw [← calm] at parked
    rw [← quiet, Bool.not_eq_false] at busy
    exact order_answered takes (eq.trans ((if_neg (by rw [in_]; decide)).trans
      ((if_neg (by rw [parked]; decide)).trans (if_pos busy))))
  · rw [← held] at in_
    rw [← calm] at parked
    rw [← quiet] at rest
    refine ⟨s.releasedScope c, order_answered takes (eq.trans ((if_neg (by rw [in_]; decide)).trans
      ((if_neg (by rw [parked]; decide)).trans ((if_neg (by rw [rest]; decide)).trans
        (congrArg State.accept (s.releasedScope_received c)))))), s.releasedScope_comp c,
      fun d ne => s.releasedScope_comp_ne ne, fun h inside => ?_, fun h out => ?_, s.releasedScope_holder c, ?_⟩
    · rw [State.hoist_releasedScope, if_pos inside]
      rfl
    · rw [State.hoist_releasedScope, out]
      rfl
    · cases c <;> rfl

/-! ### RESET_HOIST -/

/-- A hoist with no pending extent awaits no zone, and an offer passes it over (R69). -/
theorem State.offer_still {s : State} {h : HoistId} (none_ : (s.hoist h).extent = []) (c : Compartment) (z : Nat) :
    (s.offer c z).hoist h = s.hoist h := by
  unfold State.offer
  split
  · rename_i x found
    refine s.hoist_walk_other ?_
    rintro rfl
    have head := (State.waiterFor_some found).2
    rw [none_] at head
    cases head
  · rfl

theorem State.offerAll_still {s : State} {h : HoistId} (none_ : (s.hoist h).extent = []) (c : Compartment)
    (zs : List Nat) : (s.offerAll c zs).hoist h = s.hoist h := by
  induction zs generalizing s with
  | nil => rfl
  | cons z zs ih =>
    have first := State.offer_still none_ c z
    exact (ih (by rw [first]; exact none_)).trans first

theorem State.setRun_still {s : State} {h : HoistId} (none_ : (s.hoist h).extent = []) (run : Option Run)
    (left : List Nat) : (s.setRun h run left).hoist h = (s.withRun h run).hoist h := by
  cases e : (s.hoist h).config with
  | none => rw [State.setRun_unconfigured e]
  | some k =>
    rw [State.setRun_eq e]
    refine State.offerAll_still ?_ _ _
    rw [State.withRun_extent]
    exact none_

/-- What only the hoists of a part that has received a frame do is what they do of the part before it. -/
theorem State.HoistsAlone.of_received {s u : State} (a : (s.received .uplink).HoistsAlone u) :
    u = State.received { s with hoists := u.hoists } .uplink := a

/-- A reset of a hoist, its run set to its span (R54). -/
theorem State.reset_spec {s : State} {h : HoistId} {k : HoistConfig} (config : (s.hoist h).config = some k)
    (none_ : (s.hoist h).extent = []) :
    let u := (s.resetState h).runToSpan h
    u.hoist h = { (s.hoist h).atRest .parked with
      tripCause := none
      run := s.spanZones (s.comp k.compartment).committed (s.hoist h) } ∧
      (∀ y, y ≠ h → (s.hoist y).OnlyClaims (u.hoist y)) ∧ s.HoistsAlone u := by
  intro u
  have eq : u = _ := State.resetState_runToSpan config
  have self := s.hoist_resetState_self h
  rw [eq]
  refine ⟨?_, fun y ne => ?_, .trans (t := s.resetState h) rfl (State.setRun_alone _ _ _ _)⟩
  · rw [State.setRun_still (by rw [self]; exact none_)]
    unfold State.withRun
    rw [State.recompute_parked _ (by rw [self]; rfl), State.setHoist_hoist_self, self]
    rfl
  · have := State.setRun_only (s.resetState h) h (s.spanZones (s.comp k.compartment).committed (s.hoist h))
      (leavingZones (s.hoist h).run (s.spanZones (s.comp k.compartment).committed (s.hoist h))) y
    rwa [State.hoist_resetState_other s ne] at this

theorem State.resetHoist_eq {s : State} {b : Byte} {h : HoistId} (found : s.configuredHoist b = some h)
    (tripped : (s.hoist h).state = .tripped) (fresh : (s.hoist h).freshness = .fresh)
    (brake : ∀ l, (s.hoist h).latest = some l → l.brake = .set) (done : s.openHandover h = none) :
    s.resetHoist b =
      if s.spanBlocked h = true then s.refuse .conflict else State.accept ((s.resetState h).runToSpan h) := by
  have stands : ¬((s.hoist h).freshness ≠ .fresh ∨ (s.hoist h).brakeLifted = true) := by
    rintro (a | a)
    · exact a fresh
    · unfold Hoist.brakeLifted at a
      split at a
      · rename_i l e
        rw [brake l e] at a
        cases a
      · cases a
  unfold State.resetHoist
  rw [found]
  dsimp only
  rw [if_neg (not_not.2 tripped), if_neg stands, if_neg (by rw [done]; decide), State.reset_enter]

/-- Settles O42: the reset is refused exactly where the span is not clear (`State.spanBlocked_iff`), and sets the run clear of
the others. -/
theorem resetHoistParks : Obligations.ResetHoistParks := by
  intro o b s h k takes number config r table span clear ordered tripped fresh brake done
  have found : (s.received .uplink).configuredHoist b = some h := State.configuredHoist_eq number config
  have eq := State.resetHoist_eq found tripped fresh brake done
  have blocked : (s.received .uplink).spanBlocked h = false ↔ clear ∧ ordered :=
    (State.spanBlocked_iff (s := s.received .uplink) config).trans ⟨fun x => ⟨x.zones, x.order⟩, fun x => ⟨x.1, x.2⟩⟩
  refine ⟨fun a b none_ => ?_, fun not => ?_⟩
  · obtain ⟨self, others, alone⟩ := State.reset_spec (s := s.received .uplink) config none_
    refine ⟨{ s with hoists := (((s.received .uplink).resetState h).runToSpan h).hoists },
      order_answered takes (eq.trans ((if_neg ?_).trans (congrArg State.accept alone.of_received))), self, others, rfl⟩
    rw [blocked.2 ⟨a, b⟩]
    exact Bool.false_ne_true
  · exact order_answered takes (eq.trans (if_pos (Bool.of_not_eq_false fun x => not (blocked.1 x))))

end Sys2Proof.Machine
end

section
/-! ## O21: trips -/

namespace Sys2Proof.Machine

/-! ### The attention set and the record queue -/

/-- A category once latched stays latched through what hoists do. -/
theorem State.Acts.keepsLatched {s t : State} (a : s.Acts t) {i : Nat} (on : s.latched.getLsbD i = true) :
    t.latched.getLsbD i = true := by
  induction a with
  | same | hoist | recompute | enter => exact on
  | andThen _ _ x y => exact y (x on)
  | latch s c => rw [State.latch_latched, BitVec.getLsbD_or, on, Bool.true_or]
  | record s rec =>
    unfold State.appendRecord
    split
    · exact on
    · split <;> rw [State.latch_latched, BitVec.getLsbD_or] <;> exact Bool.or_eq_true_iff.2 (.inl on)

/-- The record of a move rests on what the tracker keeps of its hoist (R167). -/
theorem State.Acts.recordOf {s t : State} (a : s.Acts t) (h : HoistId) (m : Move) (o : MoveOutcome) :
    t.recordOf h m o = s.recordOf h m o := by
  have track := a.track h
  have only := a.only
  unfold State.OnlyHoists at only
  have now : t.now = s.now := by rw [only]
  unfold State.recordOf Hoist.depth
  rw [track.latest, track.travel, track.carried, now]

theorem State.closeMove_records {s : State} {h : HoistId} {m : Move} (held : (s.hoist h).move = some m)
    (isOpen : m.isOpen = true) (logging : s.logging = true) (room : s.records.length < 12) (o : MoveOutcome) :
    (s.closeMove h o).records = s.records ++ [s.recordOf h m o] := by
  have moves : (s.hoist h).moveOpen = true := by
    unfold Hoist.moveOpen
    rw [held]
    exact isOpen
  have marked : ((s.markClosed h).hoist h).move = some { m with isOpen := false } := by
    unfold State.markClosed
    rw [State.modHoist_hoist_self, Hoist.modMove_eq, held]
    rfl
  have entry : (s.markClosed h).recordOf h { m with isOpen := false } o = s.recordOf h m o :=
    (State.markClosed_acts s h).recordOf h m o
  unfold State.closeMove State.logMove
  rw [if_pos moves, marked]
  dsimp only
  rw [entry]
  unfold State.appendRecord
  rw [if_neg (by rw [show (s.markClosed h).logging = s.logging from rfl, logging]; decide)]
  exact congrArg State.records (if_pos (show (s.markClosed h).records.length < 12 from room))

/-! ### The trip of one hoist -/

/-- The part at a trip, before the hoist's move is closed. -/
def State.tripEntered (s : State) (h : HoistId) (cause : TripCause) : State :=
  ((s.modHoist h fun r => { r with tripCause := some cause, overtaken := r.overtakenBy s.now cause }).enter h .tripped).latch
    .trip

theorem State.tripEntered_acts (s : State) (h : HoistId) (cause : TripCause) : s.Acts (s.tripEntered h cause) :=
  ((State.Acts.mod s h (fun r => { r with tripCause := some cause, overtaken := r.overtakenBy s.now cause })
    ⟨rfl, rfl, rfl, rfl, rfl, rfl, rfl, rfl, rfl, rfl, rfl, rfl, rfl⟩ ⟨rfl, id⟩).andThen (.enter _ h .tripped)).andThen
      (.latch _ .trip)

theorem State.tripEntered_move (s : State) (h : HoistId) (cause : TripCause) :
    ((s.tripEntered h cause).hoist h).move = (s.hoist h).move := by
  unfold State.tripEntered
  rw [State.hoist_latch, State.enter_rest _ _ rfl, State.setHoist_hoist_self, State.modHoist_hoist_self]
  rfl

theorem State.trippedState_eq (s : State) (h : HoistId) (cause : TripCause) :
    s.trippedState h cause = ((s.tripEntered h cause).closeMove h .tripped).clearExtent h := rfl

theorem State.trippedState_latched (s : State) (h : HoistId) (cause : TripCause) :
    (s.trippedState h cause).latched.getLsbD 0 = true := by
  refine ((State.closeMove_acts _ h .tripped).andThen (State.clearExtent_acts _ h)).keepsLatched ?_
  rw [State.latch_latched, BitVec.getLsbD_or]
  exact Bool.or_eq_true_iff.2 (.inr (by decide))

theorem State.trippedState_acts (s : State) (h : HoistId) (cause : TripCause) : s.Acts (s.trippedState h cause) :=
  ((s.tripEntered_acts h cause).andThen (State.closeMove_acts _ h .tripped)).andThen (State.clearExtent_acts _ h)

/-- A trip that ends a move appends its record at once (R110, R168). -/
theorem State.trippedState_records {s : State} {h : HoistId} {m : Move} (held : (s.hoist h).move = some m)
    (isOpen : m.isOpen = true) (logging : s.logging = true) (room : s.records.length < 12) (cause : TripCause) :
    (s.trippedState h cause).records = s.records ++ [s.recordOf h m .tripped] := by
  rw [State.trippedState_eq, ← (s.tripEntered_acts h cause).recordOf h m .tripped]
  exact State.closeMove_records ((s.tripEntered_move h cause).trans held) isOpen logging room .tripped

theorem State.trippedState_comp (s : State) (h : HoistId) (cause : TripCause) (c : Compartment) :
    (s.trippedState h cause).comp c = s.comp c := by
  have only := (s.trippedState_acts h cause).only
  unfold State.OnlyHoists at only
  rw [only]
  cases c <;> rfl

/-- The zones that a trip may add are those before it (R77). -/
theorem State.trippedState_addable (s : State) (h : HoistId) (cause : TripCause) (c : Compartment) (z : Nat) :
    (s.trippedState h cause).addable c z = s.addable c z := by
  unfold State.addable
  rw [State.trippedState_comp, State.isFree_congr (s := s) (fun y => ?_) (fun y => ?_)]
  · by_cases ne : y = h
    · rw [ne, State.hoist_trippedState_self]
      rfl
    · rw [State.hoist_trippedState_other _ ne]
  · by_cases ne : y = h
    · rw [ne, State.hoist_trippedState_self]
      rfl
    · rw [State.hoist_trippedState_other _ ne]

theorem State.trippedState_claimZones (s : State) (h : HoistId) (cause : TripCause) :
    (s.trippedState h cause).claimZones h = s.claimZones h := by
  have only := (s.trippedState_acts h cause).only
  have self := s.hoist_trippedState_self h cause
  unfold State.OnlyHoists at only
  have landing : ∀ l, (s.trippedState h cause).landing l = s.landing l := fun l => by rw [only]; rfl
  have shaft : (s.trippedState h cause).shaft = s.shaft := by rw [only]
  have table : (s.trippedState h cause).tableOf ((s.trippedState h cause).hoist h) = s.tableOf (s.hoist h) := by
    rw [self]
    unfold State.tableOf
    simp only [State.trippedState_comp]
    rfl
  unfold State.claimZones State.claimSpan State.openHandover
  rw [table, shaft, self]
  simp only [landing]
  rfl

/-- The zones that a trip adds leave a hoist with no envelope with none. -/
theorem State.addAtTrip_envelope {s : State} {h : HoistId} (rest : (s.hoist h).state.takesVelocity = false)
    (none_ : (s.hoist h).envDown = 0 ∧ (s.hoist h).envUp = 0) :
    ((s.addAtTrip h).hoist h).envDown = 0 ∧ ((s.addAtTrip h).hoist h).envUp = 0 := by
  unfold State.addAtTrip
  dsimp only
  split
  · split
    · exact none_
    · rw [State.recompute_rest (by rw [State.setHoist_hoist_self]; exact rest), State.setHoist_hoist_self]
      exact ⟨rfl, rfl⟩
  · exact none_

/-! ### The trip scope -/

theorem State.applyTripScope_unconfigured {s : State} {h : HoistId} (none_ : (s.hoist h).config = none) :
    s.applyTripScope h = s := by
  unfold State.applyTripScope
  rw [none_]

/-- Under STOP_NEIGHBOURS each MOVING hoist of the compartment stops, and under ISOLATE none does (R111). -/
theorem State.hoist_applyTripScope {s : State} {h : HoistId} {k : HoistConfig} (config : (s.hoist h).config = some k)
    (x : HoistId) : (s.applyTripScope h).hoist x =
      (s.hoist x).stoppedIf ((s.comp k.compartment).tripScope = .stopNeighbours ∧
        (s.hoist x).inCompartment k.compartment = true) := by
  unfold State.applyTripScope
  rw [config]
  dsimp only
  cases e : (s.comp k.compartment).tripScope with
  | isolate => exact (if_neg fun y => nomatch y.1.1).symm
  | stopNeighbours =>
    dsimp only
    rw [State.stopAll_eq, State.hoist_mapHoists]
    unfold Hoist.stoppedIf
    simp only [State.mem_hoistsOf, true_and]

theorem State.applyTripScope_alone (s : State) (h : HoistId) : s.HoistsAlone (s.applyTripScope h) := by
  unfold State.applyTripScope
  split
  · split
    · rw [State.stopAll_eq]
      rfl
    · rfl
  · rfl

theorem State.hoist_applyTripScope_still {s : State} {h : HoistId} (x : HoistId) (still : (s.hoist x).state ≠ .moving) :
    (s.applyTripScope h).hoist x = s.hoist x := by
  cases e : (s.hoist h).config with
  | none => rw [State.applyTripScope_unconfigured e]
  | some k =>
    rw [State.hoist_applyTripScope e]
    exact if_neg fun y => still y.2

/-! ### The trip -/

theorem State.trip_can {s : State} {h : HoistId} (can : s.canTrip h = true) (cause : TripCause) :
    s.trip h cause = ((s.trippedState h cause).addAtTrip h).applyTripScope h := by
  unfold State.trip
  dsimp only
  rw [if_pos can, State.tripHoist_can can]

theorem State.trip_cannot {s : State} {h : HoistId} (not : ¬s.canTrip h = true) (cause : TripCause) :
    s.trip h cause = s.tripHoist h cause := if_neg not

/-- The hoist that trips: what the trip makes of it, on a run that may have grown (R53, R77). -/
theorem State.hoist_trip_self {s : State} {h : HoistId} (can : s.canTrip h = true) (cause : TripCause) :
    (s.trip h cause).hoist h = { (s.hoist h).trippedFor s.now cause with
      run := (((s.trippedState h cause).addAtTrip h).hoist h).run } := by
  have self := s.hoist_trippedState_self h cause
  obtain ⟨run, down, up, added⟩ := (s.trippedState h cause).addAtTrip_self h
  obtain ⟨noDown, noUp⟩ := State.addAtTrip_envelope (s := s.trippedState h cause) (h := h) (by rw [self]; rfl)
    (by rw [self]; exact ⟨rfl, rfl⟩)
  rw [State.trip_can can, State.hoist_applyTripScope_still h (by rw [added, self]; exact nofun)]
  rw [added] at noDown noUp ⊢
  obtain rfl : down = 0 := noDown
  obtain rfl : up = 0 := noUp
  rw [self]
  rfl

theorem State.addable_iff (s : State) (c : Compartment) (z : Nat) : s.addable c z = true ↔
    (((s.comp c).committed.entry z).kind ≠ .barred ∧
      ∀ y, (s.hoist y).inCompartment c = true → inRun (s.hoist y).run z = false) := by
  rw [← State.isFree_iff]
  unfold State.addable ZoneTable.barred
  simp [and_comm]

/-- How many zones a trip adds at one end of a run: as many as may be added without a gap, up to the far zone (R77). -/
def State.AddsAt (s : State) (c : Compartment) (run : Run) (far : Nat) (d : Direction) (n : Nat) : Prop :=
  (n ≤ match d with | .down => far - run.bottom | .up => run.top - far) ∧
    (∀ i, i < n → s.addable c (run.ahead d i) = true) ∧
    ((n < match d with | .down => far - run.bottom | .up => run.top - far) → s.addable c (run.ahead d n) = false)

/-- The run of a hoist that trips (R77). -/
theorem State.run_trip {s : State} {h : HoistId} {k : HoistConfig} (can : s.canTrip h = true)
    (config : (s.hoist h).config = some k) (cause : TripCause) :
    ((s.hoist h).run = none ∨ s.claimZones h = none → ((s.trip h cause).hoist h).run = (s.hoist h).run) ∧
      ∀ run x, (s.hoist h).run = some run → s.claimZones h = some x → ∃ up down,
        ((s.trip h cause).hoist h).run = some ⟨run.top - up, run.bottom + down⟩ ∧
          s.AddsAt k.compartment run x.top .up up ∧ s.AddsAt k.compartment run x.bottom .down down := by
  have entered := s.hoist_trippedState_self h cause
  have zones := s.trippedState_claimZones h cause
  have configured : ((s.trippedState h cause).hoist h).config = some k := entered ▸ config
  have same : ((s.trippedState h cause).hoist h).run = (s.hoist h).run := entered ▸ rfl
  have result : ((s.trip h cause).hoist h).run = (((s.trippedState h cause).addAtTrip h).hoist h).run :=
    State.hoist_trip_self can cause ▸ rfl
  have adds : ∀ run far d, s.AddsAt k.compartment run far d ((s.trippedState h cause).added k.compartment run far d) := by
    intro run far d
    have := (s.trippedState h cause).added_spec k.compartment run far d
    simp only [State.trippedState_addable] at this
    exact this
  refine ⟨fun still => result.trans ?_, fun run x held some_ => ?_⟩
  · rw [State.addAtTrip_still, same]
    rw [same, zones]
    exact .inr still
  · obtain ⟨down, up, added⟩ := State.addAtTrip_adds configured (same.trans held) (zones.trans some_)
    exact ⟨_, _, result.trans (by rw [added]), adds run x.top .up, adds run x.bottom .down⟩

theorem State.hoist_trip_other {s : State} {h x : HoistId} {k : HoistConfig} (can : s.canTrip h = true)
    (config : (s.hoist h).config = some k) (ne : x ≠ h) (cause : TripCause) :
    (s.trip h cause).hoist x = (s.hoist x).stoppedIf ((s.comp k.compartment).tripScope = .stopNeighbours ∧
      (s.hoist x).inCompartment k.compartment = true) := by
  have same : ((s.trippedState h cause).addAtTrip h).hoist x = s.hoist x := by
    rw [State.addAtTrip_other _ ne, State.hoist_trippedState_other _ ne]
  have still : (((s.trippedState h cause).addAtTrip h).hoist h).config = some k := by
    obtain ⟨run, down, up, added⟩ := (s.trippedState h cause).addAtTrip_self h
    rw [added, State.hoist_trippedState_self]
    exact config
  rw [State.trip_can can, State.hoist_applyTripScope still, same, (State.addAtTrip_alone _ h).comp, State.trippedState_comp]

theorem State.trip_records {s : State} {h : HoistId} (can : s.canTrip h = true) (cause : TripCause) :
    (s.trip h cause).records = (s.trippedState h cause).records ∧
      (s.trip h cause).latched = (s.trippedState h cause).latched := by
  have alone := ((s.trippedState h cause).addAtTrip_alone h).trans (State.applyTripScope_alone _ h)
  unfold State.HoistsAlone at alone
  rw [State.trip_can can, alone]
  exact ⟨rfl, rfl⟩

/-- The zones of the span a trip adds from, as R79 has it. -/
theorem State.claimZones_eq {s : State} {h : HoistId} {k : HoistConfig} {l : Latest} (config : (s.hoist h).config = some k)
    (latest : (s.hoist h).latest = some l) :
    let sill := (s.openHandover h).bind fun v => (s.landing v.1).record.map fun rec => rec.sill
    s.claimZones h = (s.comp k.compartment).committed.overlap s.shaft.floor
      (sill.elim l.spanTop fun x => x - k.height) (sill.getD l.depth) := by
  have table : s.tableOf (s.hoist h) = (s.comp k.compartment).committed := by
    unfold State.tableOf
    rw [config]
  have span : (s.hoist h).span = some (l.spanTop, l.depth) := by
    unfold Hoist.span
    rw [latest]
  have height : (s.hoist h).height = k.height := by
    unfold Hoist.height
    rw [config]
  intro sill
  unfold State.claimZones State.claimSpan
  rw [table, span, height]
  cases e : s.openHandover h with
  | none => simp [sill, e]
  | some v =>
    cases rec : (s.landing v.1).record with
    | none => simp [sill, e, rec]
    | some x => simp [sill, e, rec]

/-- Settles O21: a trip is what it makes of its own hoist, the zones it adds there, and the stops of its scope. -/
theorem tripStopsTheHoist : Obligations.TripStopsTheHoist := by
  intro s h cause r t
  refine ⟨fun tripped => ?_, fun out => ?_, fun held fresh => ?_⟩
  · refine (State.trip_cannot (fun x => (State.canTrip_iff.1 x).2 tripped) cause).trans ?_
    exact State.tripHoist_tripped tripped cause
  · have out : (s.hoist h).state.supervised = false := by rcases out with e | e <;> exact congrArg _ e
    refine (State.trip_cannot (fun x => ?_) cause).trans (State.tripHoist_out out cause)
    have := (State.canTrip_iff.1 x).1
    rw [out] at this
    cases this
  · have can := State.canTrip_iff.2 ⟨held, fresh⟩
    have self := State.hoist_trip_self can cause
    obtain ⟨records, latched⟩ := State.trip_records can cause
    have acts := State.trip_acts s h cause
    refine ⟨?_, ?_, ?_, ?_, ?_, ?_, ?_, ?_, ?_, ?_, ?_, acts.track h, ?_, acts.only, fun m move isOpen logging room => ?_,
      fun k l config latest => ?_, fun k x config ne => ?_⟩
    iterate 10 exact self ▸ rfl
    · show ((s.trip h cause).hoist h).moveOpen = false
      rw [self]
      unfold Hoist.moveOpen Hoist.trippedFor
      dsimp only
      cases (s.hoist h).move <;> rfl
    · exact latched ▸ s.trippedState_latched h cause
    · exact records.trans (State.trippedState_records move isOpen logging room cause)
    · have zones := State.claimZones_eq config latest
      obtain ⟨keeps, grows⟩ := State.run_trip can config cause
      refine ⟨fun still => keeps (still.imp_right zones.trans), fun run x held some_ => ?_⟩
      have free := fun z => s.addable_iff k.compartment z
      obtain ⟨up, down, e, ⟨roomUp, freeUp, stopUp⟩, roomDown, freeDown, stopDown⟩ := grows run x held (zones.trans some_)
      exact ⟨up, down, e, roomUp, roomDown, fun i lt => (free _).1 (freeUp i lt), fun i lt => (free _).1 (freeDown i lt),
        fun lt y => Bool.eq_false_iff.1 (stopUp lt) ((free _).2 y),
        fun lt y => Bool.eq_false_iff.1 (stopDown lt) ((free _).2 y)⟩
    · refine (State.hoist_trip_other can config ne cause).trans ?_
      unfold Hoist.stoppedIf
      simp only [and_assoc]

end Sys2Proof.Machine
end

section
/-! ## O31: the engage, park and proof timers -/

namespace Sys2Proof.Machine

/-- A timer runs and has reached its expiry. -/
theorem due_iff {now : Nat} {timer : Option Nat} : due now timer = true ↔ ∃ e, timer = some e ∧ e ≤ now := by
  unfold due
  cases timer <;> simp

theorem expiry_reached {s : State} {timer : Option Nat} (f : State → State) (reached : ∃ e, timer = some e ∧ e ≤ s.now) :
    expiry s timer f = f s := if_pos (due_iff.2 reached)

theorem expiry_early {s : State} {timer : Option Nat} (f : State → State)
    (early : ¬∃ e, timer = some e ∧ e ≤ s.now) : expiry s timer f = s := if_neg fun x => early (due_iff.1 x)

/-- An expiry that counts in one state of its hoist. -/
theorem ite_expiry {s : State} {p : Prop} [Decidable p] {timer : Option Nat} (f : State → State)
    (not : ¬(p ∧ ∃ e, timer = some e ∧ e ≤ s.now)) : (if p then expiry s timer f else s) = s := by
  split
  · exact expiry_early f fun x => not ⟨‹_›, x⟩
  · rfl

theorem State.enter_parked (s : State) (h : HoistId) : s.enter h .parked = s.setHoist h ((s.hoist h).atRest .parked) :=
  s.enter_rest h rfl

theorem State.comesSecond_iff {s : State} {h : HoistId} {cause : TripCause} :
    s.comesSecond h cause = true ↔ (s.hoist h).state = .tripped ∧ (s.hoist h).overtaken = some cause := by
  simp [State.comesSecond]

theorem State.canTrip_of {s : State} {h : HoistId} {st : HoistState} (state : (s.hoist h).state = st)
    (held : st.supervised = true) (fresh : st ≠ .tripped) : s.canTrip h = true :=
  State.canTrip_iff.2 ⟨state ▸ held, state ▸ fresh⟩

/-- A cause that a trip for another has overtaken is kept (R109). -/
theorem State.trip_overtakes {s : State} {h : HoistId} {cause other : TripCause} (can : s.canTrip h = true)
    (waits : (s.hoist h).causeDue s.now = some other) (ne : cause ≠ other) :
    ((s.trip h cause).hoist h).state = .tripped ∧ ((s.trip h cause).hoist h).overtaken = some other := by
  rw [State.hoist_trip_self can]
  refine ⟨rfl, ?_⟩
  show (s.hoist h).overtakenBy s.now cause = some other
  unfold Hoist.overtakenBy
  rw [waits]
  exact if_neg fun e => ne (Option.some.inj e).symm

theorem exec_parkTimeout (h : HoistId) {s : State} (free : s.resetInput = false) : exec (.parkTimeout h) s =
    .next (if s.comesSecond h .parkFail = true then s.takeSecond h
      else if (s.hoist h).state = .parking then expiry s (s.hoist h).engageTimer fun s => s.trip h .parkFail
      else s) := by
  show execParkTimeout h s = _
  unfold execParkTimeout
  rw [event_free s _ free]

/-- Settles O31: each expiry by the hoist's state and its timer. -/
theorem engageParkAndProofTimeouts : Obligations.EngageParkAndProofTimeouts := by
  intro h s free r overtaken reached
  refine ⟨fun engaging on => ?_, fun not => ?_, fun proving on => ?_, fun not => ?_, fun parking on => ?_, fun second => ?_,
    fun first not => ?_, fun cause parking on ne => ?_, fun cause moving on ne => ?_⟩
  · refine (event_free s _ free).trans (congrArg Host.Outcome.next ?_)
    refine (if_pos engaging).trans ((expiry_reached _ on).trans ?_)
    rw [State.enter_parked]
    rfl
  · exact (event_free s _ free).trans (congrArg Host.Outcome.next (ite_expiry _ not))
  · refine (event_free s _ free).trans (congrArg Host.Outcome.next ?_)
    refine (if_pos proving).trans ((expiry_reached _ on).trans ?_)
    rw [State.enter_parked]
    rfl
  · exact (event_free s _ free).trans (congrArg Host.Outcome.next (ite_expiry _ not))
  · have can : s.canTrip h = true := State.canTrip_of parking rfl nofun
    have self := State.hoist_trip_self can .parkFail
    have acts := State.trip_acts s h .parkFail
    have first : ¬s.comesSecond h .parkFail = true := fun x => by
      have := (State.comesSecond_iff.1 x).1
      rw [show (s.hoist h).state = .parking from parking] at this
      cases this
    refine ⟨s.trip h .parkFail, (exec_parkTimeout h free).trans (congrArg Host.Outcome.next ?_), self ▸ rfl, self ▸ rfl,
      self ▸ rfl, self ▸ rfl, acts.track h, (State.trip_records can _).2 ▸ s.trippedState_latched h _, acts.only⟩
    exact (if_neg first).trans ((if_pos parking).trans (expiry_reached _ on))
  · exact (exec_parkTimeout h free).trans (congrArg Host.Outcome.next (if_pos (State.comesSecond_iff.2 second)))
  · exact (exec_parkTimeout h free).trans (congrArg Host.Outcome.next
      ((if_neg fun x => first (State.comesSecond_iff.1 x)).trans (ite_expiry _ not)))
  · refine State.trip_overtakes (State.canTrip_of parking rfl nofun) ?_ ne
    unfold Hoist.causeDue
    rw [show (s.hoist h).state = .parking from parking]
    exact if_pos (due_iff.2 on)
  · refine State.trip_overtakes (State.canTrip_of moving rfl nofun) ?_ ne
    unfold Hoist.causeDue
    rw [show (s.hoist h).state = .moving from moving]
    exact if_pos (due_iff.2 on)

end Sys2Proof.Machine
end

section
/-! ## O20: the sequencer at a REPORT -/

namespace Sys2Proof.Machine

/-! ### What every change of the sequencer leaves alone -/

/-- The hoists alone change, and of the hoists but one the claims alone. -/
structure State.Touches (s t : State) (h : HoistId) : Prop where
  alone : s.HoistsAlone t
  others : ∀ y, y ≠ h → (s.hoist y).OnlyClaims (t.hoist y)

theorem State.Touches.same (s : State) (h : HoistId) : s.Touches s h := ⟨rfl, fun _ _ => ⟨rfl, .inl rfl⟩⟩

theorem State.Touches.andThen {s t u : State} {h : HoistId} (a : s.Touches t h) (b : t.Touches u h) : s.Touches u h :=
  ⟨a.alone.trans b.alone, fun y ne => (a.others y ne).trans (b.others y ne)⟩

theorem State.Touches.enter (s : State) (h : HoistId) (st : HoistState) : s.Touches (s.enter h st) h :=
  ⟨rfl, fun y ne => by rw [State.hoist_enter_other s ne]; exact ⟨rfl, .inl rfl⟩⟩

theorem State.Touches.mod (s : State) (h : HoistId) (f : Hoist → Hoist) : s.Touches (s.modHoist h f) h :=
  ⟨rfl, fun y ne => by rw [State.modHoist_hoist_ne _ ne]; exact ⟨rfl, .inl rfl⟩⟩

theorem State.Touches.trimTo (s : State) (h : HoistId) (keep : Option Run) : s.Touches (s.trimTo h keep) h :=
  ⟨s.trimTo_alone h keep, fun y _ => s.trimTo_only h keep y⟩

theorem State.Touches.endMove (s : State) (h : HoistId) (st : HoistState) : s.Touches (s.endMove h st) h :=
  (((State.Touches.mod s h _).andThen (.mod _ h _)).andThen (.trimTo _ h _)).andThen (.enter _ h st)

theorem State.Touches.resolveState (s : State) (h : HoistId) : s.Touches (s.resolveState h) h := by
  unfold State.resolveState
  dsimp only
  split
  · split
    · exact .enter s h _
    · exact .same s h
  · split
    · exact .endMove s h _
    · exact .same s h
  · split
    · exact .endMove s h _
    · exact .same s h
  · split
    · exact (State.Touches.trimTo s h _).andThen (.enter _ h _)
    · exact .same s h
  all_goals exact .same s h

/-! ### The sequencer, state by state -/

section

variable {s : State} {h : HoistId}

theorem State.resolveState_engaging (e : (s.hoist h).state = .engaging) :
    s.resolveState h = if (s.hoist h).engageComplete = true then s.enter h .ready else s := by
  unfold State.resolveState
  dsimp only
  rw [e]

theorem State.resolveState_moving (e : (s.hoist h).state = .moving) : s.resolveState h =
    if (s.hoist h).arrived s.timers.arrivalTolerance = true then s.endMove h (s.hoist h).afterArrival else s := by
  unfold State.resolveState
  dsimp only
  rw [e]

theorem State.resolveState_stopping (e : (s.hoist h).state = .stopping) :
    s.resolveState h = if (s.hoist h).speed = 0 then s.endMove h .ready else s := by
  unfold State.resolveState
  dsimp only
  rw [e]

theorem State.resolveState_parking (e : (s.hoist h).state = .parking) :
    s.resolveState h = if (s.hoist h).brakeLifted = false then (s.trimToSpan h).enter h .parked else s := by
  unfold State.resolveState
  dsimp only
  rw [e]

theorem State.resolveState_rest
    (e : (s.hoist h).state ∈ [.unconfigured, .releasedLocal, .parked, .proving, .ready, .docked, .tripped]) :
    s.resolveState h = s := by
  unfold State.resolveState
  dsimp only
  generalize (s.hoist h).state = st at e
  cases st with
  | engaging | moving | stopping | parking => exact absurd e (by decide)
  | _ => rfl

/-! ### A trim that ends in a state -/

/-- A hoist with no extent, trimmed and then in a state. -/
theorem State.trimmed_self (none_ : (s.hoist h).extent = []) (keep : Option Run) (st : HoistState) :
    let r' := ((s.trimTo h keep).enter h st).hoist h
    r'.state = st ∧ r'.extent = [] ∧ r'.move = (s.hoist h).move ∧
      (st.timesEngage = false → r'.engageTimer = none) ∧
      ∀ k, keep = some k → ∀ z, inRun r'.run z = true ↔ inRun (s.hoist h).run z = true ∧ k.top ≤ z ∧ z ≤ k.bottom := by
  obtain ⟨extent, move, run⟩ := State.trimTo_self none_ keep
  obtain ⟨down, up, e⟩ := (s.trimTo h keep).hoist_enter_self h st
  dsimp only
  rw [e]
  refine ⟨rfl, extent, move, fun stopped => ?_, run⟩
  show (if st.timesEngage = true then _ else none) = none
  rw [stopped]
  rfl

end

section

variable {s : State} {h : HoistId} {k : HoistConfig} {l : Latest} (config : (s.hoist h).config = some k)
  (latest : (s.hoist h).latest = some l)

include config latest

/-- The hoist as the end of its move leaves it (R45, R75). -/
theorem State.endMove_self (st : HoistState) :
    let r' := (s.endMove h st).hoist h
    r'.state = st ∧ r'.moveOpen = false ∧ r'.extent = [] ∧
      r'.move = (s.hoist h).move.map (fun m => { m with isOpen := false }) ∧
      ∀ keep, (s.comp k.compartment).committed.overlap s.shaft.floor (l.spanTop - s.shaft.guard)
          (min (l.depth + s.shaft.guard) s.shaft.floor) = some keep →
        ∀ z, inRun r'.run z = true ↔ inRun (s.hoist h).run z = true ∧ keep.top ≤ z ∧ z ≤ keep.bottom := by
  have self : ((s.markClosed h).clearExtent h).hoist h =
      { s.hoist h with extent := [], move := (s.hoist h).move.map fun m => { m with isOpen := false } } := by
    unfold State.clearExtent State.markClosed
    rw [State.modHoist_hoist_self, State.modHoist_hoist_self, Hoist.modMove_eq]
  have table : ((s.markClosed h).clearExtent h).tableOf (((s.markClosed h).clearExtent h).hoist h) =
      (s.comp k.compartment).committed := by
    rw [self]
    unfold State.tableOf
    dsimp only
    rw [config]
    rfl
  have spanTop : (((s.markClosed h).clearExtent h).hoist h).spanTop = l.spanTop := by
    rw [self]
    unfold Hoist.spanTop
    dsimp only
    rw [latest]
  have depth : (((s.markClosed h).clearExtent h).hoist h).depth = l.depth := by
    rw [self]
    unfold Hoist.depth
    dsimp only
    rw [latest]
  unfold State.endMove State.trimAtMoveEnd
  dsimp only
  rw [table, spanTop, depth]
  obtain ⟨state, extent, move, -, run⟩ := State.trimmed_self (s := (s.markClosed h).clearExtent h) (h := h)
    (by rw [self]) ((s.comp k.compartment).committed.overlap s.shaft.floor (l.spanTop - s.shaft.guard)
      (min (l.depth + s.shaft.guard) s.shaft.floor)) st
  rw [self] at move run
  have shut : ∀ r : Hoist, r.move = (s.hoist h).move.map (fun m => { m with isOpen := false }) → r.moveOpen = false :=
    fun r e => by
      unfold Hoist.moveOpen
      rw [e]
      cases (s.hoist h).move <;> rfl
  exact ⟨state, shut _ move, extent, move, run⟩

theorem State.parking_self (none_ : (s.hoist h).extent = []) :
    let r' := ((s.trimToSpan h).enter h .parked).hoist h
    r'.state = .parked ∧ r'.engageTimer = none ∧
      ∀ keep, (s.comp k.compartment).committed.overlap s.shaft.floor l.spanTop l.depth = some keep →
        ∀ z, inRun r'.run z = true ↔ inRun (s.hoist h).run z = true ∧ keep.top ≤ z ∧ z ≤ keep.bottom := by
  have span : s.spanZones (s.tableOf (s.hoist h)) (s.hoist h) =
      (s.comp k.compartment).committed.overlap s.shaft.floor l.spanTop l.depth := by
    unfold State.spanZones Hoist.span State.tableOf
    rw [latest, config]
  unfold State.trimToSpan
  dsimp only
  rw [span]
  obtain ⟨state, -, -, timer, run⟩ := State.trimmed_self none_
    ((s.comp k.compartment).committed.overlap s.shaft.floor l.spanTop l.depth) .parked
  exact ⟨state, timer rfl, run⟩

omit config in
theorem Hoist.engageComplete_iff :
    (s.hoist h).engageComplete = true ↔ l.mode = .run ∧ l.brake = .lifted ∧ l.torqueProven = true := by
  unfold Hoist.engageComplete
  rw [latest]
  simp [and_assoc]

omit config in
theorem Hoist.arrived_iff {m : Move} (held : (s.hoist h).move = some m) (tolerance : Nat) :
    (s.hoist h).arrived tolerance = true ↔ l.speed = 0 ∧ ((l.depth : Int) - m.target).natAbs ≤ tolerance := by
  unfold Hoist.arrived Hoist.speed Hoist.depth
  rw [held, latest]
  simp

end

/-! ### The outcome of a move that ends -/

section

variable {s : State} {h : HoistId}

theorem State.moveEnded_moving (e : (s.hoist h).state = .moving) : s.moveEnded h =
    if (s.hoist h).moveOpen = true ∧ (s.hoist h).arrived s.timers.arrivalTolerance = true then some .arrived else none := by
  unfold State.moveEnded
  dsimp only
  rw [e]
  by_cases isOpen : (s.hoist h).moveOpen = true <;> simp [isOpen]

theorem State.moveEnded_stopping (e : (s.hoist h).state = .stopping) : s.moveEnded h =
    if (s.hoist h).moveOpen = true ∧ (s.hoist h).speed = 0 then some (s.hoist h).stopOutcome else none := by
  unfold State.moveEnded
  dsimp only
  rw [e]
  by_cases isOpen : (s.hoist h).moveOpen = true <;> simp [isOpen]

theorem State.moveEnded_rest (moving : (s.hoist h).state ≠ .moving) (stopping : (s.hoist h).state ≠ .stopping) :
    s.moveEnded h = none := by
  unfold State.moveEnded
  simp [moving, stopping]

end

theorem Hoist.moveOpen_of {r : Hoist} {m : Move} (held : r.move = some m) : r.moveOpen = m.isOpen := by
  unfold Hoist.moveOpen
  rw [held]

theorem Hoist.stopOutcome_of {r : Hoist} {m : Move} (held : r.move = some m) :
    r.stopOutcome = if m.stopReason = some .stale then .stale else .stopped := by
  unfold Hoist.stopOutcome
  rw [held]
  dsimp only
  cases m.stopReason with
  | none => rfl
  | some x => cases x <;> rfl

/-! ### The proof result -/

theorem State.takeProofResult_proving {s : State} {h : HoistId} {l : Latest} (proving : (s.hoist h).state = .proving)
    (latest : (s.hoist h).latest = some l) : s.takeProofResult h =
      match l.proofResult with
      | .none => s
      | .pass => s.setHoist h { (s.hoist h).atRest .parked with lastPass := some s.seconds }
      | .fail => s.trip h .proofFail := by
  unfold State.takeProofResult
  dsimp only
  rw [if_pos proving, latest, State.enter_parked]
  dsimp only
  cases l.proofResult with
  | none => rfl
  | fail => rfl
  | pass =>
    unfold State.modHoist
    rw [State.setHoist_setHoist, State.setHoist_hoist_self]

theorem State.takeProofResult_rest {s : State} {h : HoistId} (rest : (s.hoist h).state ≠ .proving) :
    s.takeProofResult h = s := if_neg rest

/-- Settles O20: the sequencer state by state, each end of a move by `State.endMove_self`. -/
theorem sequencerActsOnReport : Obligations.SequencerActsOnReport := by
  intro s h k l config latest r t guard done keeps ended
  have touches := State.Touches.resolveState s h
  have alone := touches.alone
  unfold State.HoistsAlone at alone
  have speed : (s.hoist h).speed = l.speed := by
    unfold Hoist.speed
    rw [latest]
  have lifted : (s.hoist h).brakeLifted = (l.brake == .lifted) := by
    unfold Hoist.brakeLifted
    rw [latest]
  have end_ : ∀ st, t = s.endMove h st → ended st := fun st e => by
    have := State.endMove_self config latest st
    rw [← show t = s.endMove h st from e] at this
    exact this
  refine ⟨State.Acts.only (s.resolveState_acts h), by rw [show t = _ from alone], by rw [show t = _ from alone],
    touches.others, fun e complete => ?_, fun e incomplete => ?_, fun m held e => ?_, fun m held e => ?_,
    fun moving stopping => State.moveEnded_rest moving stopping, fun e set none_ => ?_, fun e up => ?_,
    fun e => State.resolveState_rest e, fun idle => ?_, fun proving pass => ?_, fun proving fail => ?_⟩
  · have eq : t = s.enter h .ready :=
      (State.resolveState_engaging e).trans (if_pos ((Hoist.engageComplete_iff latest).2 complete))
    obtain ⟨down, up, self⟩ := s.hoist_enter_self h .ready
    have watched : (s.hoist h).state.watched = true := by
      rw [show (s.hoist h).state = .engaging from e]
      rfl
    rw [eq, self]
    exact ⟨rfl, rfl, if_pos watched⟩
  · exact (State.resolveState_engaging e).trans (if_neg fun x => incomplete ((Hoist.engageComplete_iff latest).1 x))
  · have after : (s.hoist h).afterArrival = if m.parkOnArrival = true then .parking else .ready := by
      unfold Hoist.afterArrival
      rw [held]
    have arrived := Hoist.arrived_iff latest held s.timers.arrivalTolerance
    refine ⟨fun here => ?_, fun away => ?_, fun here isOpen => ?_, fun away => ?_⟩
    · exact after ▸ end_ _ ((State.resolveState_moving e).trans (if_pos (arrived.2 here)))
    · exact (State.resolveState_moving e).trans (if_neg fun x => away (arrived.1 x))
    · exact (State.moveEnded_moving e).trans (if_pos ⟨(Hoist.moveOpen_of held).trans isOpen, arrived.2 here⟩)
    · exact (State.moveEnded_moving e).trans (if_neg fun x => away (arrived.1 x.2))
  · refine ⟨fun here => ?_, fun away => ?_, fun here isOpen => ?_, fun away => ?_⟩
    · exact end_ _ ((State.resolveState_stopping e).trans (if_pos (speed.trans here)))
    · exact (State.resolveState_stopping e).trans (if_neg fun x => away (speed.symm.trans x))
    · refine (State.moveEnded_stopping e).trans
        ((if_pos ⟨(Hoist.moveOpen_of held).trans isOpen, speed.trans here⟩).trans ?_)
      rw [Hoist.stopOutcome_of held]
    · exact (State.moveEnded_stopping e).trans (if_neg fun x => away (speed.symm.trans x.2))
  · have eq : t = (s.trimToSpan h).enter h .parked :=
      (State.resolveState_parking e).trans (if_pos (by rw [lifted, set]; rfl))
    have := State.parking_self config latest none_
    rw [← eq] at this
    exact this
  · exact (State.resolveState_parking e).trans (if_neg (by rw [lifted, up]; decide))
  · by_cases proving : (s.hoist h).state = .proving
    · rw [State.takeProofResult_proving proving latest, idle.resolve_left (not_not.2 proving)]
    · exact State.takeProofResult_rest proving
  · have taken := State.takeProofResult_proving proving latest
    rw [pass] at taken
    exact taken
  · have taken := State.takeProofResult_proving proving latest
    rw [fail] at taken
    exact taken

end Sys2Proof.Machine
end

section
/-! ## O39 and O40: MOVE -/

namespace Sys2Proof.Machine

/-! ### The checks of a MOVE -/

theorem State.targetOutside_eq_false {s : State} {t : ZoneTable} {height target : Nat} (above : height ≤ target)
    (inside : target ≤ s.shaft.floor)
    (clear : ∀ z ∈ runZones (t.overlap s.shaft.floor (target - height) target), (t.entry z).kind ≠ .barred) :
    s.targetOutside t height target = false := by
  unfold State.targetOutside
  rw [decide_eq_false (by omega : ¬target < height), decide_eq_false (by omega : ¬s.shaft.floor < target)]
  exact List.any_eq_false.2 fun z m => fun e => clear z m (eq_of_beq e)

/-- A MOVE that passes every check of R44. -/
theorem State.move_accepted {s : State} {b : Byte} {h : HoistId} {k : HoistConfig} {x : Nat} (p : Bool)
    (found : s.configuredHoist b = some h) (config : (s.hoist h).config = some k)
    (ready : (s.hoist h).state = .ready ∨ (s.hoist h).state = .moving) (proof : (s.hoist h).proofStatus ≠ .lapsed)
    (above : k.height ≤ x) (inside : x ≤ s.shaft.floor)
    (clear : ∀ z ∈ runZones ((s.comp k.compartment).committed.overlap s.shaft.floor (x - k.height) x),
      ((s.comp k.compartment).committed.entry z).kind ≠ .barred)
    (away : s.timers.arrivalTolerance < ((x : Int) - (s.hoist h).depth).natAbs)
    (onward : (s.hoist h).state = .moving → reverses (s.hoist h).depth x (s.hoist h).moveDirection = false)
    (free : s.moveConflict h x = none) :
    s.move b x p =
      if (s.hoist h).state = .moving then (s.retarget h x p).accept else (s.startMove h x p).accept := by
  have outside : s.targetOutside (s.tableOf (s.hoist h)) (s.hoist h).height x = false := by
    unfold State.tableOf Hoist.height
    rw [config]
    exact State.targetOutside_eq_false above inside clear
  unfold State.move
  rw [found]
  dsimp only
  have far : nearTarget (s.hoist h).depth x s.timers.arrivalTolerance = false := decide_eq_false (Nat.not_le.2 away)
  have forward : ¬((s.hoist h).state = .moving ∧ reverses (s.hoist h).depth x (s.hoist h).moveDirection = true) :=
    fun ⟨moving, back⟩ => by rw [onward moving] at back; cases back
  rw [if_neg (fun e => ready.elim e.1 e.2), if_neg proof, if_neg (by rw [outside]; decide), if_neg (by rw [far]; decide),
    if_neg forward, free]

/-! ### A hoist after a claim -/

/-- The move part with the marks that a claim sets: WAITED where a held zone ends the walk, DEGRADED where the proof is
DUE (R45, R65). -/
def Move.marked (m : Move) (waits due : Bool) : Move :=
  { m with waited := m.waited || waits, degraded := m.degraded || due }

/-- The end that both forms of a MOVE have: the claim, the degradation and the envelope (R45, R46). -/
def State.claimed (s : State) (h : HoistId) (target : Nat) : State :=
  ((s.claim h target).degradeIfDue h).recompute h

/-- What a claim of a hoist whose proof is DUE latches (R160). -/
def State.dueLatched (s : State) (h : HoistId) : State := if (s.hoist h).proofStatus = .due then s.latchedBit 64 else s

section

variable {s : State} {h y : HoistId}

theorem State.hoist_degrade_self (s : State) (h : HoistId) :
    (s.degrade h).hoist h = (s.hoist h).modMove fun m => { m with degraded := true } :=
  s.modHoist_hoist_self h fun r => r.modMove fun m => { m with degraded := true }

theorem State.hoist_degrade_other (ne : y ≠ h) : (s.degrade h).hoist y = s.hoist y :=
  s.modHoist_hoist_ne ne fun r => r.modMove fun m => { m with degraded := true }

theorem State.hoist_degradeIfDue_self (s : State) (h : HoistId) : (s.degradeIfDue h).hoist h =
    (s.hoist h).modMove fun m => { m with degraded := m.degraded || (s.hoist h).proofStatus == .due } := by
  unfold State.degradeIfDue
  by_cases due : (s.hoist h).proofStatus = .due
  · rw [if_pos due, State.hoist_degrade_self]
    simp [due]
  · rw [if_neg due, beq_eq_false_iff_ne.2 due, Hoist.modMove_eq]
    simp

theorem State.hoist_degradeIfDue_other (ne : y ≠ h) : (s.degradeIfDue h).hoist y = s.hoist y := by
  unfold State.degradeIfDue
  split
  · exact State.hoist_degrade_other ne
  · rfl

theorem State.degradeIfDue_frame (s : State) (h : HoistId) : (s.dueLatched h).HoistsAlone (s.degradeIfDue h) := by
  unfold State.dueLatched State.degradeIfDue
  split <;> rfl

end

/-- The hoists alone differ where they alone did before the latch, with the proof status as it was. -/
theorem State.HoistsAlone.dueLatched {s t : State} (a : s.HoistsAlone t) {h : HoistId}
    (status : (t.hoist h).proofStatus = (s.hoist h).proofStatus) : (s.dueLatched h).HoistsAlone (t.dueLatched h) := by
  unfold State.HoistsAlone at a
  unfold State.dueLatched
  rw [status, a]
  split <;> rfl

/-- A part that has received a frame changes its hoists alone, with or without the latch: so does the part before it. -/
theorem State.HoistsAlone.before_received {s u : State} {h : HoistId}
    (a : ((s.received .uplink).dueLatched h).HoistsAlone u) :
    ∃ t, u = State.received t .uplink ∧ (s.dueLatched h).HoistsAlone t := by
  have same : (s.received .uplink).dueLatched h = (s.dueLatched h).received .uplink := by
    unfold State.dueLatched
    rw [apply_ite (State.received · .uplink)]
    rfl
  rw [same] at a
  exact ⟨_, a.of_received, rfl⟩

section

variable {s : State} {h : HoistId} {k : HoistConfig} {m : Move} (config : (s.hoist h).config = some k)
  (held : (s.hoist h).move = some m)

include config held

theorem State.hoist_claim_self (target : Nat) :
    let out := walkZones (s.isFree k.compartment) m.direction (s.formed h target) (s.hoist h).run
    ∃ down up, (s.claim h target).hoist h = { s.hoist h with
      run := out.1
      extent := out.2
      envDown := down
      envUp := up
      move := some { m with waited := m.waited || out.2 != [] } } := by
  intro out
  have self := s.hoist_withExtent_self h (s.formed h target)
  have direction : (s.hoist h).moveDirection = m.direction := by
    unfold Hoist.moveDirection
    rw [held]
  obtain ⟨down, up, e⟩ := State.hoist_walk_self (s := s.withExtent h (s.formed h target)) (h := h)
    (by rw [self]; exact config)
  have same : (s.withExtent h (s.formed h target)).isFree k.compartment = s.isFree k.compartment :=
    funext (s.withExtent_free h _ k.compartment)
  have walked : walkZones (s.isFree k.compartment) (s.hoist h).moveDirection (s.formed h target) (s.hoist h).run = out := by
    rw [direction]
  rw [self, same, show Hoist.moveDirection { s.hoist h with extent := s.formed h target } = (s.hoist h).moveDirection from rfl,
    walked] at e
  refine ⟨down, up, e.trans ?_⟩
  have marked : (if out.2 = [] then (s.hoist h).move else (s.hoist h).move.map fun m => { m with waited := true }) =
      some { m with waited := m.waited || out.2 != [] } := by
    rw [held]
    cases out.2 <;> simp
  unfold Hoist.walkedTo
  rw [Hoist.setWaited_move]
  dsimp only
  rw [marked]

theorem State.hoist_claimed_self (target : Nat) :
    let out := walkZones (s.isFree k.compartment) m.direction (s.formed h target) (s.hoist h).run
    let u := s.claimed h target
    u.hoist h = { s.hoist h with
      run := out.1
      extent := out.2
      envDown := u.envelope (u.hoist h) .down
      envUp := u.envelope (u.hoist h) .up
      move := some (m.marked (out.2 != []) ((s.hoist h).proofStatus == .due)) } := by
  intro out u
  obtain ⟨down, up, e⟩ := State.hoist_claim_self config held target
  have degraded := State.hoist_degradeIfDue_self (s.claim h target) h
  rw [e, Hoist.modMove_eq] at degraded
  have self := Hoist.enveloped_eq (t := u) rfl (State.hoist_recompute_enveloped ((s.claim h target).degradeIfDue h) h)
  rw [degraded] at self
  exact self

theorem State.claimed_frame (target : Nat) : (s.dueLatched h).HoistsAlone (s.claimed h target) := by
  obtain ⟨down, up, e⟩ := State.hoist_claim_self config held target
  have status : ((s.claim h target).hoist h).proofStatus = (s.hoist h).proofStatus := by rw [e]
  have alone : s.HoistsAlone (s.claim h target) := .trans (t := s.withExtent h _) rfl (State.walk_alone _ h)
  exact ((alone.dueLatched status).trans (State.degradeIfDue_frame _ h)).trans rfl

end

theorem State.hoist_claimed_other {s : State} {h y : HoistId} (ne : y ≠ h) (target : Nat) :
    (s.claimed h target).hoist y = s.hoist y := by
  unfold State.claimed
  rw [State.hoist_recompute_other _ ne, State.hoist_degradeIfDue_other ne, State.claim_eq, State.hoist_walk_other _ ne,
    State.hoist_withExtent_other s ne]

/-- The zones of the pending extent in the terms of the hoist's configuration and move (R64). -/
theorem State.formed_eq {s : State} {h : HoistId} {k : HoistConfig} {m : Move} (config : (s.hoist h).config = some k)
    (held : (s.hoist h).move = some m) (target : Nat) : s.formed h target =
      s.extentFor (s.comp k.compartment).committed (s.hoist h).run k.height target m.direction := by
  unfold State.formed State.tableOf Hoist.height Hoist.moveDirection
  rw [config, held]

theorem State.hoists_eq_set {s t : State} {h : HoistId} (others : ∀ y, y ≠ h → t.hoist y = s.hoist y) :
    t.hoists = s.hoists.set h.val (t.hoist h) := by
  refine Vector.ext fun i range => ?_
  rw [Vector.getElem_set]
  split
  · rename_i e
    subst e
    rfl
  · rename_i ne
    exact others ⟨i, range⟩ fun e => ne (congrArg Fin.val e).symm

/-! ### A move that opens -/

/-- The state with the move opened and nothing yet claimed (R45). -/
def State.opened (s : State) (h : HoistId) (target : Nat) (p : Bool) : State :=
  (s.modHoist h fun r => r.openMove s.now target p).enter h .moving

theorem State.startMove_eq (s : State) (h : HoistId) (target : Nat) (p : Bool) :
    s.startMove h target p = (s.opened h target p).claimed h target := rfl

theorem State.hoist_opened_self {s : State} {h : HoistId} (ready : (s.hoist h).state = .ready) (target : Nat) (p : Bool) :
    ∃ down up, (s.opened h target p).hoist h = { (s.hoist h).openMove s.now target p with
      state := .moving
      tripLineOpen := false
      engageTimer := none
      proofTimer := none
      stopAllowance := none
      envDown := down
      envUp := up } := by
  obtain ⟨down, up, e⟩ := (s.modHoist h fun r => r.openMove s.now target p).hoist_enter_self h .moving
  rw [State.modHoist_hoist_self] at e
  have watched : ((s.hoist h).openMove s.now target p).state.watched = true := by
    show (s.hoist h).state.watched = true
    rw [ready]
    rfl
  refine ⟨down, up, e.trans ?_⟩
  unfold Hoist.inState
  rw [watched]
  rfl

theorem State.hoist_opened_other {s : State} {h y : HoistId} (ne : y ≠ h) (target : Nat) (p : Bool) :
    (s.opened h target p).hoist y = s.hoist y := by
  unfold State.opened
  rw [State.hoist_enter_other _ ne, State.modHoist_hoist_ne _ ne]

/-- A move opened leaves every holder in place. -/
theorem State.opened_free {s : State} {h : HoistId} (ready : (s.hoist h).state = .ready) (target : Nat) (p : Bool)
    (c : Compartment) : (s.opened h target p).isFree c = s.isFree c := by
  obtain ⟨down, up, self⟩ := State.hoist_opened_self ready target p
  refine funext (State.isFree_congr (fun y => ?_) (fun y => ?_) c) <;> by_cases ne : y = h
  · rw [ne, self]
    rfl
  · rw [State.hoist_opened_other ne]
  · rw [ne, self]
    rfl
  · rw [State.hoist_opened_other ne]

/-- A move opened and its way claimed (R45, R64 to R67). -/
theorem State.startMove_spec {s : State} {h : HoistId} {k : HoistConfig} (config : (s.hoist h).config = some k)
    (ready : (s.hoist h).state = .ready) (target : Nat) (p : Bool) :
    let r := s.hoist h
    let d := directionTo r.depth target
    let walked := walkZones (s.isFree k.compartment) d
      (s.extentFor (s.comp k.compartment).committed r.run k.height target d) r.run
    let u := s.startMove h target p
    u.hoist h = { r.openMove s.now target p with
      state := .moving
      tripLineOpen := false
      engageTimer := none
      proofTimer := none
      stopAllowance := none
      run := walked.1
      extent := walked.2
      envDown := u.envelope (u.hoist h) .down
      envUp := u.envelope (u.hoist h) .up
      move := some
        { target := target
          direction := d
          parkOnArrival := p
          startDepth := r.depth
          startTime := s.now
          waited := walked.2 != []
          clamped := false
          degraded := r.proofStatus == .due
          stopReason := none
          isOpen := true } } ∧
      (∀ y, y ≠ h → u.hoist y = s.hoist y) ∧ (s.dueLatched h).HoistsAlone u := by
  intro r d walked u
  obtain ⟨down, up, self⟩ := State.hoist_opened_self ready target p
  have config' : ((s.opened h target p).hoist h).config = some k := by rw [self]; exact config
  have held := congrArg Hoist.move self
  have claimed := State.hoist_claimed_self config' held target
  rw [State.formed_eq config' held, State.opened_free ready, self, ← State.startMove_eq] at claimed
  have alone : s.HoistsAlone (s.opened h target p) := rfl
  refine ⟨claimed, fun y ne => ?_, (alone.dueLatched ?_).trans (State.claimed_frame config' held target)⟩
  · exact (State.hoist_claimed_other ne target).trans (State.hoist_opened_other ne target p)
  · rw [self]
    rfl

/-- Settles O39: the move that opens (`State.hoist_opened_self`) and its claim (`State.hoist_claimed_self`). -/
theorem moveOpensAMove : Obligations.MoveOpensAMove := by
  intro o b target p s h k takes number config r x table d walked ready proof above inside clear away free
  have found : (s.received .uplink).configuredHoist b = some h := State.configuredHoist_eq number config
  have accepted := State.move_accepted (s := s.received .uplink) (p != 0) found config (.inl ready) proof above inside clear
    away (fun moving => nomatch ready.symm.trans moving) free
  obtain ⟨self, others, alone⟩ := State.startMove_spec (s := s.received .uplink) config ready x (p != 0)
  obtain ⟨t, eq, frame⟩ := alone.before_received
  have still : ((s.received .uplink).hoist h).state ≠ .moving := fun moving => nomatch ready.symm.trans moving
  rw [if_neg still, eq] at accepted
  rw [eq] at self others
  refine ⟨t, order_answered takes accepted, self, ?_⟩
  rw [← State.hoists_eq_set (s := s) (t := t) others]
  exact frame

end Sys2Proof.Machine
end

section
/-! ## O40: MOVE of a MOVING hoist -/

namespace Sys2Proof.Machine

/-- A zone beyond the leading end of a run does not lie in it (R64). -/
theorem not_inRun_of_mem_beyondZones {run : Run} {far z : Nat} {d : Direction} (m : z ∈ beyondZones run far d) :
    inRun (some run) z = false := by
  refine Bool.eq_false_iff.2 fun held => ?_
  rw [inRun_some] at held
  cases d with
  | down =>
    have := List.mem_range'_1.1 m
    omega
  | up =>
    have := List.mem_range'_1.1 (List.mem_reverse.1 m)
    omega

theorem State.not_inRun_of_mem_extentFor {s : State} {t : ZoneTable} {run : Option Run} {height target z : Nat} {d : Direction}
    (m : z ∈ s.extentFor t run height target d) : inRun run z = false := by
  unfold State.extentFor at m
  split at m
  · exact not_inRun_of_mem_beyondZones ((List.takeWhile_subset _) m)
  · cases m

theorem State.HoistsAlone.extentFor {s t : State} (a : s.HoistsAlone t) (table : ZoneTable) (run : Option Run)
    (height target : Nat) (d : Direction) :
    t.extentFor table run height target d = s.extentFor table run height target d := by
  unfold State.HoistsAlone at a
  rw [a]
  rfl

/-! ### A retarget -/

/-- The state with the run cut to what a retarget keeps, the move retargeted and nothing yet claimed (R46, R74). -/
def State.retargeted (s : State) (h : HoistId) (target : Nat) (p : Bool) : State :=
  let r := s.hoist h
  let run := s.retargetRun r target r.moveDirection
  ((s.clearExtent h).setRun h run (retargetLeaving r.run run r.moveDirection)).modHoist h fun r => r.newTarget target p

theorem State.retarget_eq (s : State) (h : HoistId) (target : Nat) (p : Bool) :
    s.retarget h target p = (s.retargeted h target p).claimed h target := rfl

theorem State.hoist_retargeted_self {s : State} {h : HoistId} {m : Move} (held : (s.hoist h).move = some m) (target : Nat)
    (p : Bool) : ∃ down up, (s.retargeted h target p).hoist h = { s.hoist h with
      run := s.retargetRun (s.hoist h) target m.direction
      extent := []
      envDown := down
      envUp := up
      move := some { m with target := target, parkOnArrival := p } } := by
  have direction : (s.hoist h).moveDirection = m.direction := by
    unfold Hoist.moveDirection
    rw [held]
  obtain ⟨down, up, e⟩ := (s.clearExtent h).hoist_withRun_self h (s.retargetRun (s.hoist h) target m.direction)
  unfold State.retargeted Hoist.newTarget
  dsimp only
  rw [direction, State.modHoist_hoist_self, State.setRun_still (by rw [State.hoist_clearExtent_self]), e,
    State.hoist_clearExtent_self, Hoist.modMove_eq]
  refine ⟨down, up, ?_⟩
  dsimp only
  rw [held]
  rfl

theorem State.hoist_retargeted_other {s : State} {h y : HoistId} (ne : y ≠ h) (target : Nat) (p : Bool) :
    (s.hoist y).OnlyClaims ((s.retargeted h target p).hoist y) := by
  unfold State.retargeted
  rw [State.modHoist_hoist_ne _ ne, ← State.hoist_clearExtent_other s ne]
  exact State.setRun_only _ h _ _ y

theorem State.retargeted_alone (s : State) (h : HoistId) (target : Nat) (p : Bool) :
    s.HoistsAlone (s.retargeted h target p) :=
  .trans (t := (s.clearExtent h).setRun h _ _) ((State.HoistsAlone.mod s h _).trans (State.setRun_alone _ h _ _)) rfl

/-- A zone that another hoist's run takes is not free (R61). -/
theorem State.holder_ne_none {s : State} {c : Compartment} {z : Nat} {y : HoistId}
    (inside : (s.hoist y).inCompartment c = true) (held : inRun (s.hoist y).run z = true) : s.holder c z ≠ none := by
  intro none_
  have free : s.isFree c z = true := by
    unfold State.isFree
    rw [none_]
    rfl
  rw [State.isFree_iff.1 free y inside] at held
  cases held

/-- A walk in the terms of how many zones of the extent it takes (R66). -/
theorem walkZones_taken (free : Nat → Bool) (d : Direction) (zs : List Nat) (run : Option Run) :
    let j := zs.findIdx fun z => !free z
    walkZones free d zs run = ((zs.take j).foldl (fun run z => growRun run d z) run, zs.drop j) ∧
      ∀ z ∈ zs.take j, free z = true := by
  intro j
  have taken : zs.takeWhile free = zs.take j := List.takeWhile_eq_take_findIdx_not
  have rest : zs.dropWhile free = zs.drop j := List.dropWhile_eq_drop_findIdx_not
  exact ⟨by rw [walkZones_eq, taken, rest], fun z m => List.mem_takeWhile_imp (taken ▸ m)⟩

/-- A move retargeted and its way claimed afresh (R46, R73, R74). -/
theorem State.retarget_spec {s : State} {h : HoistId} {k : HoistConfig} {m : Move} (config : (s.hoist h).config = some k)
    (held : (s.hoist h).move = some m) (target : Nat) (p : Bool) :
    let r := s.hoist h
    let kept := s.retargetRun r target m.direction
    let extent := s.extentFor (s.comp k.compartment).committed kept k.height target m.direction
    let u := s.retarget h target p
    ∃ j, u.hoist h = { r with
        run := (extent.take j).foldl (fun run z => growRun run m.direction z) kept
        extent := extent.drop j
        envDown := u.envelope (u.hoist h) .down
        envUp := u.envelope (u.hoist h) .up
        move := some { m with
          target := target
          parkOnArrival := p
          waited := m.waited || extent.drop j != []
          degraded := m.degraded || r.proofStatus == .due } } ∧
      (∀ z ∈ extent.take j, ∀ y, y ≠ h → (s.hoist y).inCompartment k.compartment = true →
        inRun (u.hoist y).run z = false) ∧
      (∀ z, (extent.drop j).head? = some z → u.holder k.compartment z ≠ none) ∧
      (∀ y, y ≠ h → (s.hoist y).OnlyClaims (u.hoist y)) ∧ (s.dueLatched h).HoistsAlone u := by
  intro r kept extent u
  obtain ⟨down, up, self⟩ := State.hoist_retargeted_self held target p
  have alone := s.retargeted_alone h target p
  have config' : ((s.retargeted h target p).hoist h).config = some k := by rw [self]; exact config
  have held' := congrArg Hoist.move self
  have run : ((s.retargeted h target p).hoist h).run = kept := congrArg Hoist.run self
  have others : ∀ y, y ≠ h → u.hoist y = (s.retargeted h target p).hoist y :=
    fun y ne => State.hoist_claimed_other ne target
  have formed : (s.retargeted h target p).formed h target = extent := by
    rw [State.formed_eq config' held', alone.comp, run]
    exact alone.extentFor ..
  have claimed := State.hoist_claimed_self config' held' target
  obtain ⟨walked, free⟩ := walkZones_taken ((s.retargeted h target p).isFree k.compartment) m.direction extent kept
  dsimp only at claimed
  rw [formed, run, walked, self, ← State.retarget_eq] at claimed
  refine ⟨_, claimed, fun z taken y ne inside => ?_, fun z head => ?_, fun y ne => ?_, ?_⟩
  · have only := State.hoist_retargeted_other ne target p (s := s)
    rw [others y ne]
    refine State.isFree_iff.1 (free z taken) y ?_
    rw [Hoist.inCompartment_config only.config]
    exact inside
  · have blocked : (s.retargeted h target p).isFree k.compartment z = false :=
      walkZones_stops (d := m.direction) (run := kept) (by rw [walked]; exact head)
    obtain ⟨y, inside, taken⟩ : ∃ y, ((s.retargeted h target p).hoist y).inCompartment k.compartment = true ∧
        inRun ((s.retargeted h target p).hoist y).run z = true := by
      by_contra none_
      refine Bool.eq_false_iff.1 blocked (State.isFree_iff.2 fun y inside => ?_)
      exact Bool.eq_false_iff.2 fun taken => none_ ⟨y, inside, taken⟩
    have ne : y ≠ h := by
      rintro rfl
      rw [run, State.not_inRun_of_mem_extentFor (List.mem_of_mem_drop (List.mem_of_mem_head? head))] at taken
      cases taken
    rw [← others y ne] at inside taken
    exact State.holder_ne_none inside taken
  · rw [others y ne]
    exact State.hoist_retargeted_other ne target p
  · refine (alone.dueLatched ?_).trans (State.claimed_frame config' held' target)
    rw [self]

/-! ### A retarget's depths and zones in each direction -/

theorem State.farDepth_eq (s : State) (height target : Nat) (d : Direction) : s.farDepth height target d =
    if d = .down then min (target + s.shaft.guard) s.shaft.floor else target - height - s.shaft.guard := by
  cases d <;> rfl

theorem State.keepDepth_eq {s : State} {r : Hoist} {k : HoistConfig} (config : r.config = some k) (target : Nat)
    (d : Direction) : s.keepDepth r target d =
      if d = .down then max (min (r.depth + r.speed.natAbs ^ 2 / (2 * k.decel)) s.shaft.floor) (s.farDepth k.height target d)
      else min (r.depth - r.speed.natAbs ^ 2 / (2 * k.decel)) (s.farDepth k.height target d) := by
  unfold State.keepDepth State.stoppingPoint Hoist.height Hoist.decel
  rw [config]
  cases d <;> rfl

/-- The extent formed where there is a far zone (R64). -/
theorem State.extentFor_eq {s : State} {t : ZoneTable} {run : Run} {height target far : Nat} {d : Direction}
    (zone : t.zoneAt s.shaft.floor (s.farDepth height target d) = some far) :
    s.extentFor t (some run) height target d =
      (if d = .down then List.range' (run.bottom + 1) (far - run.bottom)
        else (List.range' far (run.top - far)).reverse).takeWhile fun z => (t.entry z).kind != .barred := by
  unfold State.extentFor
  rw [zone]
  cases d <;> rfl

/-- The run a retarget keeps, from its keep zone and the span (R74). -/
theorem State.retargetRun_eq {s : State} {r : Hoist} {run span : Run} {target keepZone : Nat} {d : Direction}
    (held : r.run = some run) (zone : (s.tableOf r).zoneAt s.shaft.floor (s.keepDepth r target d) = some keepZone)
    (spans : s.spanZones (s.tableOf r) r = some span) : s.retargetRun r target d = some (
      if d = .down then ⟨run.top, max run.top (min run.bottom (max keepZone span.bottom))⟩
      else ⟨min run.bottom (max run.top (min keepZone span.top)), run.bottom⟩) := by
  unfold State.retargetRun
  dsimp only
  rw [held, zone, spans]
  cases d <;> rfl

theorem reverses_eq_false {depth target : Nat} {d : Direction} (down : d = .down → depth ≤ target)
    (up : d = .up → target ≤ depth) : reverses depth target d = false := by
  cases d with
  | down => exact decide_eq_false (Nat.not_lt.2 (down rfl))
  | up => exact decide_eq_false (Nat.not_lt.2 (up rfl))

/-- Settles O40: the retarget and its claim (`State.retarget_spec`), with what it keeps in the terms of R73 and R74. -/
theorem moveRetargetsAnOpenMove : Obligations.MoveRetargetsAnOpenMove := by
  intro o b target p s h k m run span keepZone farZone takes number config held hasRun r x table floor down distance farDepth
    keepDepth keeps reaches spans moving proof above inside clear away onDown onUp free kept extent
  have found : (s.received .uplink).configuredHoist b = some h := State.configuredHoist_eq number config
  have direction : (s.hoist h).moveDirection = m.direction := by
    unfold Hoist.moveDirection
    rw [held]
  have accepted := State.move_accepted (s := s.received .uplink) (p != 0) found config (.inr moving) proof above inside clear
    away (fun _ => (congrArg (reverses _ x) direction).trans (reverses_eq_false onDown onUp)) free
  have tableOf : s.tableOf r = table := by
    unfold State.tableOf
    rw [show r.config = some k from config]
  have far : s.farDepth k.height x m.direction = farDepth := s.farDepth_eq _ _ _
  have keepAt : s.keepDepth r x m.direction = keepDepth := by
    rw [State.keepDepth_eq config, far]
  have keptRun : s.retargetRun r x m.direction = some kept :=
    State.retargetRun_eq hasRun (by rw [tableOf, keepAt]; exact keeps) (by rw [tableOf]; exact spans)
  have formed : s.extentFor table (some kept) k.height x m.direction = extent :=
    State.extentFor_eq (by rw [far]; exact reaches)
  obtain ⟨j, self, taken, head, others, alone⟩ :=
    State.retarget_spec (s := s.received .uplink) config held x (p != 0)
  obtain ⟨t, eq, frame⟩ := alone.before_received
  rw [if_pos (by exact moving), eq] at accepted
  have keptRun' : (s.received .uplink).retargetRun ((s.received .uplink).hoist h) x m.direction = some kept := keptRun
  have formed' : (s.received .uplink).extentFor ((s.received .uplink).comp k.compartment).committed (some kept) k.height x
    m.direction = extent := formed
  rw [keptRun', formed', eq] at self
  rw [keptRun', formed', eq] at taken head
  rw [eq] at others
  have extentLeft : (t.hoist h).extent = extent.drop j := congrArg Hoist.extent self
  have runLeft := congrArg Hoist.run self
  have moveLeft := congrArg Hoist.move self
  refine ⟨t, _, j, order_answered takes accepted, moveLeft, ?_, extentLeft, runLeft, taken, ?_, ?_, others, frame⟩
  · rw [extentLeft]
    rfl
  · rw [extentLeft]
    exact head
  · rw [extentLeft, show (t.hoist h).run = _ from runLeft]
    exact self

end Sys2Proof.Machine
end

section
/-! ## O18: release behind -/

namespace Sys2Proof.Machine

/-! ### The zones released -/

theorem Run.trailing_eq (run : Run) (d : Direction) (i : Nat) :
    run.trailing d i = if d = .down then run.top + i else run.bottom - i := by cases d <;> rfl

theorem shortenBehind_eq (run : Run) (n : Nat) (d : Direction) :
    shortenBehind run n d = if d = .down then ⟨run.top + n, run.bottom⟩ else ⟨run.top, run.bottom - n⟩ := by
  cases d <;> rfl

theorem qualifiesBehind_iff {t : ZoneTable} {floor guard top bottom : Nat} {d : Direction} {z : Nat} :
    qualifiesBehind t floor guard top bottom d z = true ↔ inRun (t.overlap floor top bottom) z = false ∧
      if d = .down then t.lower floor z + guard ≤ top else bottom + guard ≤ t.upper z := by
  cases d <;> simp [qualifiesBehind, and_comm]

/-- The zones released are those that qualify from the trailing end, up to the first that does not and never the last
(R70, R71). -/
theorem behindZones_spec (t : ZoneTable) (floor guard top bottom : Nat) (d : Direction) {run : Run}
    (b : Block (some run)) :
    let qualifies := fun i => qualifiesBehind t floor guard top bottom d (run.trailing d i)
    ∃ n, n ≤ run.bottom - run.top ∧ behindZones t floor guard top bottom d run = (List.range n).map (run.trailing d) ∧
      (∀ i, i < n → qualifies i = true) ∧ (n < run.bottom - run.top → ¬qualifies n = true) := by
  intro qualifies
  have cut : (trailingZones run d).dropLast = (List.range (run.bottom - run.top)).map (run.trailing d) := by
    have high := b.2
    rw [trailingZones_eq b, Nat.succ_sub high, List.range_succ, List.map_append, List.map_singleton,
      List.dropLast_concat]
  have found : behindZones t floor guard top bottom d run =
      ((List.range (run.bottom - run.top)).takeWhile qualifies).map (run.trailing d) := by
    unfold behindZones
    rw [cut, List.takeWhile_map]
    rfl
  rw [List.takeWhile_eq_take_findIdx_not, List.take_range] at found
  have short := List.findIdx_le_length (xs := List.range (run.bottom - run.top)) (p := fun i => !qualifies i)
  rw [List.length_range] at short
  refine ⟨_, short, by rwa [min_eq_left short] at found, fun i less => ?_, fun less => ?_⟩
  · simpa using List.not_of_lt_findIdx less
  · have stops := List.findIdx_getElem (xs := List.range (run.bottom - run.top)) (p := fun i => !qualifies i)
      (w := by rwa [List.length_range])
    simpa using stops

/-! ### Offers that grant nothing -/

/-- An offer passes over a hoist that does not await the zone (R69). -/
theorem State.offer_unawaited {s : State} {h : HoistId} {z : Nat} (ne : (s.hoist h).extent.head? ≠ some z)
    (c : Compartment) : (s.offer c z).hoist h = s.hoist h := by
  unfold State.offer
  split
  · rename_i x found
    refine s.hoist_walk_other ?_
    rintro rfl
    exact ne (State.waiterFor_some found).2
  · rfl

theorem State.offerAll_unawaited {s : State} {h : HoistId} {zs : List Nat}
    (ne : ∀ z ∈ zs, (s.hoist h).extent.head? ≠ some z) (c : Compartment) :
    (s.offerAll c zs).hoist h = s.hoist h := by
  induction zs generalizing s with
  | nil => rfl
  | cons z zs ih =>
    have first := State.offer_unawaited (ne z List.mem_cons_self) c
    exact (ih (by rw [first]; exact fun v m => ne v (List.mem_cons_of_mem z m))).trans first

/-- A zone that no hoist awaits stays free (R69). -/
theorem State.offer_nobody {s : State} {c : Compartment} {z : Nat}
    (none_ : ∀ x, (s.hoist x).inCompartment c = true → (s.hoist x).extent.head? ≠ some z) : s.offer c z = s := by
  unfold State.offer
  split
  · rename_i x found
    obtain ⟨inside, head⟩ := State.waiterFor_some found
    exact absurd head (none_ x inside)
  · rfl

/-- A zone that one hoist alone awaits is offered to it (R69). -/
theorem State.offer_alone_waiter {s : State} {c : Compartment} {z : Nat} {y : HoistId}
    (inside : (s.hoist y).inCompartment c = true) (head : (s.hoist y).extent.head? = some z)
    (only : ∀ x, x ≠ y → (s.hoist x).inCompartment c = true → (s.hoist x).extent.head? ≠ some z) :
    s.offer c z = s.walk y := by
  unfold State.offer
  split
  · rename_i x found
    obtain ⟨inside', head'⟩ := State.waiterFor_some found
    by_cases e : x = y
    · rw [e]
    · exact absurd head' (only x e inside')
  · rename_i found
    exact absurd head (State.waiterFor_none found y inside)

/-- A hoist whose awaited zone is held walks nowhere (R65). -/
theorem State.walk_blocked {s : State} {y : HoistId} {k : HoistConfig} (config : (s.hoist y).config = some k)
    (held : ∀ z, (s.hoist y).extent.head? = some z → s.isFree k.compartment z = false) (x : HoistId) :
    (s.hoist x).SameClaims ((s.walk y).hoist x) := by
  by_cases ne : x = y
  · subst ne
    have only := (s.walk_walked x x).only
    obtain ⟨down, up, walked⟩ := State.hoist_walk_self config
    have stays : walkZones (s.isFree k.compartment) (s.hoist x).moveDirection (s.hoist x).extent (s.hoist x).run =
        ((s.hoist x).run, (s.hoist x).extent) := by
      cases e : (s.hoist x).extent with
      | nil => rfl
      | cons z zs =>
        unfold walkZones
        rw [held z (by rw [e]; rfl), if_neg Bool.false_ne_true]
    rw [stays] at walked
    exact ⟨only.config, only.state, by rw [walked]; rfl, by rw [walked]; rfl, only.moveOpen, only.moveDirection⟩
  · rw [State.hoist_walk_other s ne]
    exact .same _

theorem Hoist.SameClaims.trans {r r' r'' : Hoist} (a : r.SameClaims r') (b : r'.SameClaims r'') : r.SameClaims r'' :=
  ⟨b.config.trans a.config, b.state.trans a.state, b.run.trans a.run, b.extent.trans a.extent,
    b.moveOpen.trans a.moveOpen, b.moveDirection.trans a.moveDirection⟩

/-- Offers of zones that are free for none of their waiters change no claim (R65, R69). -/
theorem State.offerAll_blocked {s : State} {c : Compartment} {zs : List Nat}
    (held : ∀ x, (s.hoist x).inCompartment c = true → ∀ z ∈ zs, (s.hoist x).extent.head? = some z →
      s.isFree c z = false) (x : HoistId) : (s.hoist x).SameClaims ((s.offerAll c zs).hoist x) := by
  induction zs generalizing s with
  | nil => exact .same _
  | cons z zs ih =>
    have first : ∀ x, (s.hoist x).SameClaims ((s.offer c z).hoist x) := by
      unfold State.offer
      split
      · rename_i w found
        obtain ⟨inside, head⟩ := State.waiterFor_some found
        obtain ⟨k, config, rfl⟩ := Hoist.inCompartment_iff.1 inside
        refine State.walk_blocked config fun v head' => ?_
        obtain rfl : z = v := Option.some.inj (head.symm.trans head')
        exact held w inside z List.mem_cons_self head
      · exact fun x => .same _
    refine (first x).trans (ih fun w inside v m head => ?_)
    rw [Hoist.inCompartment_config (first w).config] at inside
    rw [(first w).extent] at head
    rw [State.isFree_congr (fun h => (first h).config) fun h => (first h).run]
    exact held w inside v (List.mem_cons_of_mem z m) head

/-! ### The hoist that awaits a released zone -/

/-- What a hoist has walked: the zones at the front of its extent are its run's, up to a held zone (R65, R66). -/
structure State.WalksOn (s t : State) (c : Compartment) (y : HoistId) (j : Nat) : Prop where
  extent : (t.hoist y).extent = (s.hoist y).extent.drop j
  run : (t.hoist y).run =
    ((s.hoist y).extent.take j).foldl (fun run z => growRun run (s.hoist y).moveDirection z) (s.hoist y).run
  held : ∀ z, (t.hoist y).extent.head? = some z → t.isFree c z = false

/-- A walk of a hoist whose awaited zone is free (R66). -/
theorem State.walk_walksOn {s : State} {y : HoistId} {k : HoistConfig} {z : Nat}
    (config : (s.hoist y).config = some k) (fits : (s.hoist y).ExtentOk)
    (head : (s.hoist y).extent.head? = some z) (free : s.isFree k.compartment z = true) :
    ∃ j, 0 < j ∧ s.WalksOn (s.walk y) k.compartment y j := by
  rw [Hoist.extentOk_iff] at fits
  obtain ⟨down, up, walked⟩ := State.hoist_walk_self config
  obtain ⟨taken, -⟩ := walkZones_taken (s.isFree k.compartment) (s.hoist y).moveDirection (s.hoist y).extent
    (s.hoist y).run
  have run := congrArg Hoist.run walked
  have extent := congrArg Hoist.extent walked
  refine ⟨(s.hoist y).extent.findIdx fun z => !s.isFree k.compartment z, ?_, extent.trans (congrArg Prod.snd taken),
    run.trans (congrArg Prod.fst taken), fun v head' => ?_⟩
  · obtain ⟨rest, e⟩ := List.head?_eq_some_iff.1 head
    rw [e, List.findIdx_cons, free]
    exact Nat.succ_pos _
  · rw [extent] at head'
    have blocked := walkZones_stops head'
    rw [Bool.eq_false_iff] at blocked ⊢
    refine fun free' => blocked (State.isFree_iff.2 fun x inside => ?_)
    have gone := State.isFree_iff.1 free' x
      (by rwa [Hoist.inCompartment_config (s.walk_walked y x).only.config])
    by_cases ne : x = y
    · subst ne
      rw [run, Bool.eq_false_iff] at gone
      exact Bool.eq_false_iff.2 fun m => gone (walkZones_keeps fits m)
    · rwa [State.hoist_walk_other s ne] at gone

/-- Zones offered of which a hoist alone awaits one that is free: it walks on from there (R66, R69). -/
theorem State.offerAll_walksOn {s : State} {y : HoistId} {k : HoistConfig} {z : Nat} {zs : List Nat}
    (config : (s.hoist y).config = some k) (fits : (s.hoist y).ExtentOk)
    (head : (s.hoist y).extent.head? = some z) (free : s.isFree k.compartment z = true) (offered : z ∈ zs)
    (only : ∀ x, x ≠ y → (s.hoist x).inCompartment k.compartment = true → ∀ v ∈ zs,
      (s.hoist x).extent.head? ≠ some v) :
    ∃ j, 0 < j ∧ s.WalksOn (s.offerAll k.compartment zs) k.compartment y j := by
  have inside : (s.hoist y).inCompartment k.compartment = true := Hoist.inCompartment_iff.2 ⟨k, config, rfl⟩
  induction zs with
  | nil => cases offered
  | cons v zs ih =>
    change ∃ j, 0 < j ∧ s.WalksOn ((s.offer k.compartment v).offerAll k.compartment zs) k.compartment y j
    by_cases e : v = z
    · subst e
      obtain ⟨j, some_, on⟩ := State.walk_walksOn config fits head free
      rw [State.offer_alone_waiter inside head fun x ne here => only x ne here v List.mem_cons_self]
      have rest := State.offerAll_blocked (s := s.walk y) (c := k.compartment) (zs := zs) fun x here w m head' => by
        by_cases ne : x = y
        · subst ne
          exact on.held w head'
        · rw [State.hoist_walk_other s ne] at here head'
          exact absurd head' (only x ne here w (List.mem_cons_of_mem v m))
      refine ⟨j, some_, (rest y).extent.trans on.extent, (rest y).run.trans on.run, fun w head' => ?_⟩
      rw [(rest y).extent] at head'
      rw [State.isFree_congr (fun h => (rest h).config) fun h => (rest h).run]
      exact on.held w head'
    · rw [State.offer_nobody fun x here => ?_]
      · exact ih ((List.mem_cons.1 offered).resolve_left (Ne.symm e)) fun x ne here w m =>
          only x ne here w (List.mem_cons_of_mem v m)
      · by_cases ne : x = y
        · subst ne
          rw [head]
          exact fun e' => e (Option.some.inj e').symm
        · exact only x ne here v List.mem_cons_self

/-! ### The release -/

/-- The zones at the trailing end of a hoist's run have left it and been offered in turn (R69 to R71). -/
def State.freedBehind (s : State) (h : HoistId) (c : Compartment) (run : Run) (d : Direction) (n : Nat) : State :=
  (s.withRun h (some (shortenBehind run n d))).offerAll c ((List.range n).map (run.trailing d))

section

variable {s : State} {h : HoistId}

theorem State.releaseBehind_still (moving : (s.hoist h).state ≠ .moving) (stopping : (s.hoist h).state ≠ .stopping) :
    s.releaseBehind h = s := by
  unfold State.releaseBehind
  dsimp only
  rw [if_neg fun either => either.elim moving stopping]

variable {k : HoistConfig} {run : Run} {d : Direction} {n : Nat}

theorem State.freedBehind_alone (s : State) (h : HoistId) (c : Compartment) (run : Run) (d : Direction) (n : Nat) :
    s.HoistsAlone (s.freedBehind h c run d n) :=
  .trans (t := s.withRun h (some (shortenBehind run n d))) rfl (State.offerAll_alone _ _ _)

theorem State.freedBehind_other (s : State) {h y : HoistId} (ne : y ≠ h) (c : Compartment) (run : Run) (d : Direction)
    (n : Nat) : (s.hoist y).OnlyClaims ((s.freedBehind h c run d n).hoist y) := by
  have walked := State.offerAll_walked (s.withRun h (some (shortenBehind run n d))) c
    ((List.range n).map (run.trailing d)) y
  rw [State.hoist_withRun_other s ne] at walked
  exact walked.only

theorem State.releaseBehind_eq (config : (s.hoist h).config = some k)
    (under : (s.hoist h).state = .moving ∨ (s.hoist h).state = .stopping) (held : (s.hoist h).run = some run)
    (dir : (s.hoist h).moveDirection = d)
    (zones : behindZones (s.comp k.compartment).committed s.shaft.floor s.shaft.guard (s.hoist h).spanTop
      (s.hoist h).depth d run = (List.range n).map (run.trailing d)) :
    s.releaseBehind h = if n = 0 then s else s.freedBehind h k.compartment run d n := by
  have table : s.tableOf (s.hoist h) = (s.comp k.compartment).committed := by
    unfold State.tableOf
    rw [config]
  unfold State.releaseBehind
  dsimp only
  rw [if_pos under, held, dir, table]
  dsimp only
  rw [zones, State.setRun_eq config, List.length_map, List.length_range]
  simp only [List.map_eq_nil_iff, List.range_eq_nil, State.freedBehind]

/-- No zone at the trailing end of a run is the one its hoist awaits. -/
theorem Hoist.ExtentOk.trailing_ne {r : Hoist} (fits : r.ExtentOk) (held : r.run = some run) {i : Nat}
    (room : run.top + i ≤ run.bottom) : r.extent.head? ≠ some (run.trailing d i) := by
  intro head
  obtain ⟨rest, e⟩ := List.head?_eq_some_iff.1 head
  rw [Hoist.extentOk_iff, e, held] at fits
  refine Bool.eq_false_iff.1 fits.head_beyond (inRun_some.2 ?_)
  cases d with
  | down => exact ⟨Nat.le_add_right _ _, room⟩
  | up => exact ⟨Nat.le_sub_of_add_le room, Nat.sub_le _ _⟩

/-- The hoist itself is left with the shorter run and its envelope. -/
theorem State.hoist_freedBehind_self (fits : (s.hoist h).ExtentOk) (held : (s.hoist h).run = some run)
    (room : run.top + n ≤ run.bottom) (c : Compartment) :
    (s.freedBehind h c run d n).hoist h =
      Hoist.enveloped { s.hoist h with run := some (shortenBehind run n d) } s := by
  unfold State.freedBehind
  rw [State.offerAll_unawaited]
  · unfold State.withRun
    rw [State.hoist_recompute_enveloped, State.modHoist_hoist_self]
    rfl
  · intro z offered
    obtain ⟨i, less, rfl⟩ := List.mem_map.1 offered
    rw [List.mem_range] at less
    rw [State.withRun_extent]
    exact fits.trailing_ne held (by omega)

/-- A zone released is no longer in the run. -/
theorem not_inRun_shortenBehind (room : n ≤ run.bottom - run.top) {i : Nat} (less : i < n) :
    inRun (some (shortenBehind run n d)) (run.trailing d i) = false := by
  rw [Bool.eq_false_iff, Ne, inRun_some]
  cases d with
  | down => dsimp only [shortenBehind, Run.trailing]; omega
  | up => dsimp only [shortenBehind, Run.trailing]; omega

/-- A hoist that alone awaits a released zone is granted it (R66, R69, R71). -/
theorem State.freedBehind_grants (fits : ∀ y, (s.hoist y).ExtentOk) (room : n ≤ run.bottom - run.top) {i : Nat}
    {y : HoistId} (less : i < n) (ne : y ≠ h) (inside : (s.hoist y).inCompartment k.compartment = true)
    (head : (s.hoist y).extent.head? = some (run.trailing d i))
    (apart : ∀ x, (s.hoist x).inCompartment k.compartment = true → x ≠ h →
      inRun (s.hoist x).run (run.trailing d i) = false)
    (only : ∀ x j, x ≠ y → j < n → (s.hoist x).inCompartment k.compartment = true →
      (s.hoist x).extent.head? ≠ some (run.trailing d j)) :
    ∃ j, 0 < j ∧ s.WalksOn (s.freedBehind h k.compartment run d n) k.compartment y j := by
  have same : ∀ x, ((s.withRun h (some (shortenBehind run n d))).hoist x).inCompartment k.compartment =
      (s.hoist x).inCompartment k.compartment := fun x => Hoist.inCompartment_config (s.withRun_config h _ x) _
  obtain ⟨k', config', there⟩ := Hoist.inCompartment_iff.1 inside
  have other := State.hoist_withRun_other s ne (some (shortenBehind run n d))
  have free : (s.withRun h (some (shortenBehind run n d))).isFree k.compartment (run.trailing d i) = true := by
    refine State.isFree_iff.2 fun x here => ?_
    rw [same] at here
    rw [State.withRun_run]
    split
    · exact not_inRun_shortenBehind room less
    · exact apart x here ‹_›
  rw [← there] at free inside only same ⊢
  obtain ⟨j, some_, on⟩ := State.offerAll_walksOn (by rw [other]; exact config') (by rw [other]; exact fits y)
    (by rw [other]; exact head) free (List.mem_map_of_mem (List.mem_range.2 less)) fun x ne' here v m => by
      obtain ⟨j, less', rfl⟩ := List.mem_map.1 m
      rw [same] at here
      rw [State.withRun_extent]
      exact only x j ne' (List.mem_range.1 less') here
  exact ⟨j, some_, other ▸ on.extent, other ▸ on.run, on.held⟩

end

/-- Settles O18: the zones released are a stretch of the run's trailing end, which the hoist itself does not await, and the
offers of them walk their only waiter once. -/
theorem releaseBehind : Obligations.ReleaseBehind := by
  intro s h k config r t table span
  refine ⟨fun moving stopping => State.releaseBehind_still moving stopping, ?_⟩
  intro run m under held move fits down trail behind
  have dir : r.moveDirection = m.direction := by
    unfold Hoist.moveDirection
    rw [move]
  have trails : trail = run.trailing m.direction := funext fun i => (Run.trailing_eq run m.direction i).symm
  have block : Block (some run) := held ▸ (Hoist.extentOk_iff.1 (fits h)).block
  have high := block.2
  obtain ⟨n, room, zones, front, stops⟩ := behindZones_spec table s.shaft.floor s.shaft.guard r.spanTop r.depth
    m.direction block
  have released := State.releaseBehind_eq config under held dir zones
  change t = _ at released
  have alone : s.HoistsAlone t := by
    rw [released]
    split
    · rfl
    · exact s.freedBehind_alone h _ _ _ _
  refine ⟨n, room, fun i less => ?_, fun less => ?_, fun none_ => ?_, fun some_ => ?_, fun y ne => ?_, alone, ?_⟩
  · rw [trails]
    exact qualifiesBehind_iff.1 (front i less)
  · rw [trails]
    exact fun is => stops less (qualifiesBehind_iff.2 is)
  · rw [released, if_pos none_]
  · rw [if_neg some_] at released
    have self := State.hoist_freedBehind_self (n := n) (d := m.direction) (fits h) held (by omega) k.compartment
    rw [← released] at self
    have enveloped := Hoist.enveloped_eq alone self
    rw [shortenBehind_eq] at enveloped
    exact enveloped
  · rw [released]
    split
    · exact ⟨rfl, .inl rfl⟩
    · exact s.freedBehind_other ne _ _ _ _
  · intro i y less ne inside head apart only
    rw [trails] at head apart only
    obtain ⟨j, some_, on⟩ := State.freedBehind_grants fits room less ne inside head apart only
    rw [if_neg (by omega)] at released
    rw [← released] at on
    refine ⟨j, some_, on.extent, on.run, fun z head' none_ => ?_⟩
    have held' := on.held z head'
    unfold State.isFree at held'
    rw [none_] at held'
    cases held'

end Sys2Proof.Machine
end

section
/-! ## O19: the trip tests of a REPORT -/

namespace Sys2Proof.Machine

/-! ### What each test finds -/

section Tests

variable {s : State} {h : HoistId} {k : HoistConfig} {l : Latest}

theorem HoistState.testsOvertravel_iff {st : HoistState} :
    st.testsOvertravel = true ↔ st.supervised = true ∧ st ≠ .tripped := by cases st <;> decide

theorem HoistState.testsOverspeed_iff {st : HoistState} :
    st.testsOverspeed = true ↔ st = .ready ∨ st = .moving ∨ st = .stopping := by cases st <;> decide

/-- OVERTRAVEL (R78). -/
theorem State.overtravels_iff : s.overtravels h = true ↔
    ((s.hoist h).state.supervised = true ∧ (s.hoist h).state ≠ .tripped) ∧
      ∃ z ∈ runZones (s.claimZones h), inRun (s.hoist h).run z = false := by
  unfold State.overtravels
  rw [Bool.and_eq_true, HoistState.testsOvertravel_iff]
  cases s.claimZones h <;> simp [runZones]

theorem Hoist.loweredAllowance_eq (config : (s.hoist h).config = some k) (elapsed : Nat) :
    (s.hoist h).loweredAllowance elapsed = (s.hoist h).stopAllowance.getD 0 - k.decel * elapsed / 1000 := by
  unfold Hoist.loweredAllowance Hoist.decel
  rw [config]
  cases (s.hoist h).stopAllowance with
  | none => exact (Nat.zero_sub _).symm
  | some x => rfl

/-- OVERSPEED (R105, R106). -/
theorem Hoist.overspeeds_iff (config : (s.hoist h).config = some k) (latest : (s.hoist h).latest = some l)
    {margin elapsed : Nat} :
    let r := s.hoist h
    let lowered := r.stopAllowance.getD 0 - k.decel * elapsed / 1000
    let reference := if 0 < l.speed then r.refDown else r.refUp
    let limit := (if r.state = .stopping then max lowered reference else reference) + margin
    r.overspeeds margin elapsed = true ↔
      (r.state = .ready ∨ r.state = .moving ∨ r.state = .stopping) ∧ limit < l.speed.natAbs ∧ l.speed ≠ 0 := by
  intro r lowered reference limit
  have speed : r.speed = l.speed := by
    unfold Hoist.speed
    rw [latest]
  have same : r.speedLimit margin elapsed = limit := by
    unfold Hoist.speedLimit Hoist.reference
    rw [Hoist.loweredAllowance_eq config, speed, Nat.add_max_add_right]
    exact (apply_ite (· + margin) _ _ _).symm
  unfold Hoist.overspeeds
  rw [same, speed, Bool.and_eq_true, Bool.and_eq_true, HoistState.testsOverspeed_iff, bne_iff_ne, decide_eq_true_eq,
    and_assoc, and_comm (a := l.speed ≠ 0)]

/-- SEPARATION: a neighbour is nearer than the minimum (R107). -/
theorem State.mem_tooCloseTo (config : (s.hoist h).config = some k) (latest : (s.hoist h).latest = some l) {x : HoistId} :
    x ∈ s.tooCloseTo h ↔ x ≠ h ∧ (s.hoist x).inCompartment k.compartment = true ∧
      (s.hoist h).state.supervised = true ∧ (s.hoist x).state.supervised = true ∧
      if k.rank < (s.hoist x).rank then ((s.hoist x).spanTop : Int) - l.depth < s.shaft.separation
      else (l.spanTop : Int) - (s.hoist x).depth < s.shaft.separation := by
  have rank : (s.hoist h).rank = k.rank := by
    unfold Hoist.rank
    rw [config]
  have depth : (s.hoist h).depth = l.depth := by
    unfold Hoist.depth
    rw [latest]
  have top : (s.hoist h).spanTop = l.spanTop := by
    unfold Hoist.spanTop
    rw [latest]
  have fails : pairFails s.shaft.separation (s.hoist h) (s.hoist x) = true ↔
      if k.rank < (s.hoist x).rank then ((s.hoist x).spanTop : Int) - l.depth < s.shaft.separation
      else (l.spanTop : Int) - (s.hoist x).depth < s.shaft.separation := by
    unfold pairFails tooClose
    rw [rank, depth, top]
    split <;> exact decide_eq_true_iff
  unfold State.tooCloseTo
  dsimp only
  rw [config]
  dsimp only
  split
  · rename_i held
    rw [List.mem_filter, State.mem_hoistsOf, Bool.and_eq_true, Bool.and_eq_true, fails, bne_iff_ne]
    tauto
  · rename_i out
    exact ⟨fun m => absurd m List.not_mem_nil, fun near => absurd near.2.2.1 out⟩

/-- DRIVE_FAULT (R108). -/
theorem Hoist.driveFaults_iff {r : Hoist} (latest : r.latest = some l) :
    r.driveFaults = true ↔ r.state.supervised = true ∧ l.fault ≠ 0 ∧ l.brake = .lifted := by
  unfold Hoist.driveFaults
  rw [latest]
  simp

/-- The first cause of a REPORT (R109). -/
theorem State.reportCauses_head (s : State) (h : HoistId) (elapsed : Nat) :
    (s.reportCauses h elapsed).head? =
      if s.overtravels h = true then some .overtravel
      else if (s.hoist h).overspeeds s.timers.overspeedMargin elapsed = true then some .overspeed
      else if s.tooCloseTo h ≠ [] then some .separation
      else if (s.hoist h).driveFaults = true then some .driveFault else none := by
  unfold State.reportCauses
  dsimp only
  split
  · rfl
  · split
    · rfl
    · by_cases none_ : s.tooCloseTo h = []
      · rw [if_pos none_, if_neg (not_not.2 none_)]
        split <;> rfl
      · rw [if_neg none_, if_pos none_]
        rfl

theorem State.reportCauses_ne_nil {elapsed : Nat} : s.reportCauses h elapsed ≠ [] ↔
    s.overtravels h = true ∨ (s.hoist h).overspeeds s.timers.overspeedMargin elapsed = true ∨
      s.tooCloseTo h ≠ [] ∨ (s.hoist h).driveFaults = true := by
  unfold State.reportCauses
  simp only [ne_eq, List.append_eq_nil_iff, ite_eq_right_iff, List.cons_ne_nil, imp_false, ite_eq_left_iff]
  tauto

end Tests

/-! ### A trip among others -/

theorem State.Acts.comp {s t : State} (a : s.Acts t) (c : Compartment) : t.comp c = s.comp c := by
  have only := a.only
  unfold State.OnlyHoists at only
  rw [only]
  cases c <;> rfl

theorem State.hoist_tripHoist_other (s : State) {h x : HoistId} (ne : x ≠ h) (cause : TripCause) :
    (s.tripHoist h cause).hoist x = s.hoist x := by
  by_cases can : s.canTrip h = true
  · rw [State.tripHoist_can can, State.addAtTrip_other _ ne, State.hoist_trippedState_other _ ne]
  · by_cases tripped : (s.hoist h).state = .tripped
    · rw [State.tripHoist_tripped tripped, State.hoist_latch]
    · rw [State.tripHoist_out (Bool.eq_false_iff.2 fun held => can (State.canTrip_iff.2 ⟨held, tripped⟩))]

theorem State.hoist_tripHoist_self {s : State} {h : HoistId} (can : s.canTrip h = true) (cause : TripCause) :
    ((s.tripHoist h cause).hoist h).state = .tripped ∧ ((s.tripHoist h cause).hoist h).tripCause = some cause := by
  obtain ⟨run, down, up, added⟩ := (s.trippedState h cause).addAtTrip_self h
  rw [State.tripHoist_can can, added, State.hoist_trippedState_self]
  exact ⟨rfl, rfl⟩

/-- A hoist that is TRIPPED already stands as it was through any trip cause (R104). -/
theorem State.hoist_tripHoist_tripped {s : State} {x : HoistId} (tripped : (s.hoist x).state = .tripped) (h : HoistId)
    (cause : TripCause) : (s.tripHoist h cause).hoist x = s.hoist x := by
  by_cases e : x = h
  · subst e
    rw [State.tripHoist_tripped tripped, State.hoist_latch]
  · exact s.hoist_tripHoist_other e cause

/-- A cause that reaches a supervised hoist latches TRIP (R104, R110). -/
theorem State.tripHoist_latched {s : State} {h : HoistId} (held : (s.hoist h).state.supervised = true)
    (cause : TripCause) : (s.tripHoist h cause).latched.getLsbD 0 = true := by
  by_cases tripped : (s.hoist h).state = .tripped
  · rw [State.tripHoist_tripped tripped, State.latch_latched, BitVec.getLsbD_or]
    exact Bool.or_eq_true_iff.2 (.inr (by decide))
  · rw [State.tripHoist_can (State.canTrip_iff.2 ⟨held, tripped⟩)]
    exact (State.addAtTrip_acts _ h).keepsLatched (s.trippedState_latched h cause)

/-! ### The neighbours that trip -/

/-- The neighbours of a failed separation test trip in turn (R109). -/
def State.tripPartners (s : State) (hs : List HoistId) : State := hs.foldl (fun s x => s.tripHoist x .separation) s

theorem State.tripPartners_acts (s : State) (hs : List HoistId) : s.Acts (s.tripPartners hs) :=
  .fold _ (fun s x => s.tripHoist_acts x .separation) hs s

theorem State.hoist_tripPartners_other {s : State} {x : HoistId} {hs : List HoistId} (out : x ∉ hs) :
    (s.tripPartners hs).hoist x = s.hoist x := by
  induction hs generalizing s with
  | nil => rfl
  | cons y ys ih =>
    obtain ⟨ne, rest⟩ := not_or.1 (mt List.mem_cons.2 out)
    exact (ih rest).trans (s.hoist_tripHoist_other ne .separation)

theorem State.hoist_tripPartners_tripped {s : State} {x : HoistId} {hs : List HoistId}
    (tripped : (s.hoist x).state = .tripped) : (s.tripPartners hs).hoist x = s.hoist x := by
  induction hs generalizing s with
  | nil => rfl
  | cons y ys ih =>
    have first := State.hoist_tripHoist_tripped tripped y .separation
    exact (ih (first ▸ tripped)).trans first

theorem State.hoist_tripPartners_mem {s : State} {x : HoistId} {hs : List HoistId} (m : x ∈ hs)
    (can : s.canTrip x = true) :
    ((s.tripPartners hs).hoist x).state = .tripped ∧ ((s.tripPartners hs).hoist x).tripCause = some .separation := by
  induction hs generalizing s with
  | nil => cases m
  | cons y ys ih =>
    change (((s.tripHoist y .separation).tripPartners ys).hoist x).state = _ ∧
      (((s.tripHoist y .separation).tripPartners ys).hoist x).tripCause = _
    by_cases e : x = y
    · subst e
      have trips := State.hoist_tripHoist_self can .separation
      rw [State.hoist_tripPartners_tripped trips.1]
      exact trips
    · refine ih ((List.mem_cons.1 m).resolve_left e) ?_
      unfold State.canTrip at can ⊢
      rwa [s.hoist_tripHoist_other e]

/-! ### The tests acted on, before the trip scope -/

/-- The stop allowance a REPORT leaves (R106). -/
def Hoist.lowered (r : Hoist) (elapsed : Nat) : Hoist :=
  { r with
    stopAllowance :=
      if r.state = .stopping then some (min (r.loweredAllowance elapsed) r.speed.natAbs) else r.stopAllowance }

theorem Hoist.lowered_still {r : Hoist} (still : r.state ≠ .stopping) (elapsed : Nat) : r.lowered elapsed = r := by
  unfold Hoist.lowered
  rw [if_neg still]

theorem State.lowerAllowance_eq (s : State) (h : HoistId) (elapsed : Nat) :
    s.lowerAllowance h elapsed = s.setHoist h ((s.hoist h).lowered elapsed) := by
  unfold State.lowerAllowance State.modHoist Hoist.lowered
  dsimp only
  split <;> rfl

/-- The reporting hoist trips for the first cause, and its near neighbours trip (R109). -/
def State.testsTaken (s : State) (h : HoistId) (elapsed : Nat) : State :=
  let lowered := s.lowerAllowance h elapsed
  ((s.reportCauses h elapsed).head?.elim lowered (lowered.tripHoist h)).tripPartners (s.tooCloseTo h)

/-- Some hoist trips on the REPORT. -/
def State.testsTrip (s : State) (h : HoistId) (elapsed : Nat) : Bool :=
  (s.reportCauses h elapsed != [] && s.canTrip h) || (s.tooCloseTo h).any fun x => s.canTrip x

theorem State.actOnTests_eq (s : State) (h : HoistId) (elapsed : Nat) :
    s.actOnTests h elapsed = if s.testsTrip h elapsed = true then (s.testsTaken h elapsed).applyTripScope h
      else s.testsTaken h elapsed := by
  unfold State.actOnTests State.testsTrip State.testsTaken
  cases s.reportCauses h elapsed <;> rfl

section Taken

variable {s : State} {h : HoistId} {elapsed : Nat}

theorem State.tooCloseTo_not_self (s : State) (h : HoistId) : h ∉ s.tooCloseTo h := by
  unfold State.tooCloseTo
  dsimp only
  split
  · split
    · simp
    · exact List.not_mem_nil
  · exact List.not_mem_nil

theorem State.testsTaken_acts (s : State) (h : HoistId) (elapsed : Nat) : s.Acts (s.testsTaken h elapsed) := by
  refine .andThen ?_ (State.tripPartners_acts _ _)
  cases (s.reportCauses h elapsed).head? with
  | none => exact s.lowerAllowance_acts h elapsed
  | some c => exact (s.lowerAllowance_acts h elapsed).andThen (State.tripHoist_acts _ h c)

/-- The reporting hoist's own trip touches no other, nor does a lowered allowance. -/
theorem State.hoist_ownTests_other {x : HoistId} (ne : x ≠ h) (c : Option TripCause) :
    (c.elim (s.lowerAllowance h elapsed) ((s.lowerAllowance h elapsed).tripHoist h)).hoist x = s.hoist x := by
  have lowered : (s.lowerAllowance h elapsed).hoist x = s.hoist x := by
    rw [State.lowerAllowance_eq, State.setHoist_hoist_ne _ ne]
  cases c with
  | none => exact lowered
  | some c => exact (State.hoist_tripHoist_other _ ne c).trans lowered

theorem State.hoist_testsTaken_self (s : State) (h : HoistId) (elapsed : Nat) :
    (s.testsTaken h elapsed).hoist h = ((s.reportCauses h elapsed).head?.elim (s.lowerAllowance h elapsed)
      ((s.lowerAllowance h elapsed).tripHoist h)).hoist h :=
  State.hoist_tripPartners_other (s.tooCloseTo_not_self h)

theorem State.hoist_testsTaken_bystander {x : HoistId} (ne : x ≠ h) (far : x ∉ s.tooCloseTo h) :
    (s.testsTaken h elapsed).hoist x = s.hoist x :=
  (State.hoist_tripPartners_other far).trans (State.hoist_ownTests_other ne _)

/-- The trip scope leaves a hoist that is not MOVING as it stands. -/
theorem State.hoist_actOnTests_still {x : HoistId} (still : ((s.testsTaken h elapsed).hoist x).state ≠ .moving) :
    (s.actOnTests h elapsed).hoist x = (s.testsTaken h elapsed).hoist x := by
  rw [State.actOnTests_eq]
  split
  · exact State.hoist_applyTripScope_still x still
  · rfl

/-! ### The tests acted on -/

/-- The reporting hoist trips for the first cause (R109, R110). -/
theorem State.actOnTests_trips {c : TripCause} (can : s.canTrip h = true)
    (first : (s.reportCauses h elapsed).head? = some c) :
    ((s.actOnTests h elapsed).hoist h).state = .tripped ∧
      ((s.actOnTests h elapsed).hoist h).tripCause = some c := by
  have can' : (s.lowerAllowance h elapsed).canTrip h = true := by
    unfold State.canTrip at can ⊢
    rwa [State.lowerAllowance_eq, State.setHoist_hoist_self]
  have self := s.hoist_testsTaken_self h elapsed
  rw [first] at self
  have trips := State.hoist_tripHoist_self can' c
  rw [State.hoist_actOnTests_still] <;> rw [self]
  · exact trips
  · exact fun moving => nomatch trips.1.symm.trans moving

/-- A reporting hoist that is TRIPPED already stands as it was (R104). -/
theorem State.actOnTests_tripped (tripped : (s.hoist h).state = .tripped) :
    (s.actOnTests h elapsed).hoist h = s.hoist h := by
  have lowered : (s.lowerAllowance h elapsed).hoist h = s.hoist h := by
    rw [State.lowerAllowance_eq, State.setHoist_hoist_self, Hoist.lowered_still (by rw [tripped]; exact nofun)]
  have self : (s.testsTaken h elapsed).hoist h = s.hoist h := by
    rw [State.hoist_testsTaken_self]
    cases (s.reportCauses h elapsed).head? with
    | none => exact lowered
    | some c => exact (State.hoist_tripHoist_tripped (lowered ▸ tripped) h c).trans lowered
  rw [State.hoist_actOnTests_still, self]
  rw [self, tripped]
  exact nofun

/-- A neighbour too near trips for SEPARATION, unless it is TRIPPED already (R107, R109). -/
theorem State.actOnTests_partner {x : HoistId} (near : x ∈ s.tooCloseTo h)
    (held : (s.hoist x).state.supervised = true) :
    if (s.hoist x).state = .tripped then (s.actOnTests h elapsed).hoist x = s.hoist x
    else ((s.actOnTests h elapsed).hoist x).state = .tripped ∧
      ((s.actOnTests h elapsed).hoist x).tripCause = some .separation := by
  have ne : x ≠ h := fun e => s.tooCloseTo_not_self h (e ▸ near)
  have own := State.hoist_ownTests_other (s := s) (elapsed := elapsed) ne (s.reportCauses h elapsed).head?
  split
  · rename_i tripped
    have same : (s.testsTaken h elapsed).hoist x = s.hoist x :=
      (State.hoist_tripPartners_tripped (own ▸ tripped)).trans own
    rw [State.hoist_actOnTests_still, same]
    rw [same, tripped]
    exact nofun
  · rename_i fresh
    have trips : ((s.testsTaken h elapsed).hoist x).state = .tripped ∧
        ((s.testsTaken h elapsed).hoist x).tripCause = some .separation :=
      State.hoist_tripPartners_mem near (State.canTrip_iff.2 (own.symm ▸ ⟨held, fresh⟩))
    rw [State.hoist_actOnTests_still fun moving => nomatch trips.1.symm.trans moving]
    exact trips

/-- Any other hoist is stopped by the trip scope, or left (R111). -/
theorem State.actOnTests_bystander {k : HoistConfig} (config : (s.hoist h).config = some k) {x : HoistId} (ne : x ≠ h)
    (far : x ∉ s.tooCloseTo h) : (s.actOnTests h elapsed).hoist x = (s.hoist x).stoppedIf
      ((s.testsTrip h elapsed = true ∧ (s.comp k.compartment).tripScope = .stopNeighbours) ∧
        (s.hoist x).inCompartment k.compartment = true) := by
  have acts := s.testsTaken_acts h elapsed
  rw [State.actOnTests_eq]
  split
  · rename_i trips
    rw [State.hoist_applyTripScope ((acts.track h).config.trans config), acts.comp,
      State.hoist_testsTaken_bystander ne far]
    simp only [trips, true_and]
  · rename_i quiet
    rw [State.hoist_testsTaken_bystander ne far]
    exact (if_neg fun x => quiet x.1.1.1).symm

/-- Any cause found latches TRIP (R104, R110). -/
theorem State.actOnTests_latched (held : (s.hoist h).state.supervised = true)
    (some_ : s.reportCauses h elapsed ≠ []) : (s.actOnTests h elapsed).latched.getLsbD 0 = true := by
  have taken : (s.testsTaken h elapsed).latched.getLsbD 0 = true := by
    refine (State.tripPartners_acts _ _).keepsLatched ?_
    obtain ⟨c, rest, e⟩ := List.exists_cons_of_ne_nil some_
    rw [e]
    refine State.tripHoist_latched ?_ c
    rw [State.lowerAllowance_eq, State.setHoist_hoist_self]
    exact held
  rw [State.actOnTests_eq]
  split
  · exact (State.applyTripScope_acts _ h).keepsLatched taken
  · exact taken

/-- With no cause found only the stop allowance changes (R106). -/
theorem State.actOnTests_quiet (none_ : s.reportCauses h elapsed = []) :
    s.actOnTests h elapsed = s.setHoist h ((s.hoist h).lowered elapsed) := by
  have alone : s.tooCloseTo h = [] := by
    by_contra some_
    exact State.reportCauses_ne_nil.2 (.inr (.inr (.inl some_))) none_
  rw [State.actOnTests_eq, ← State.lowerAllowance_eq]
  unfold State.testsTrip State.testsTaken
  rw [none_, alone]
  rfl

/-- A hoist trips on the REPORT: the reporting one, or a neighbour too near that is not TRIPPED (R104). -/
theorem State.testsTrip_iff (held : ∀ x ∈ s.tooCloseTo h, (s.hoist x).state.supervised = true) :
    s.testsTrip h elapsed = true ↔
      (s.reportCauses h elapsed ≠ [] ∧ (s.hoist h).state.supervised = true ∧ (s.hoist h).state ≠ .tripped) ∨
        ∃ x ∈ s.tooCloseTo h, (s.hoist x).state ≠ .tripped := by
  unfold State.testsTrip
  rw [Bool.or_eq_true, Bool.and_eq_true, bne_iff_ne, State.canTrip_iff, List.any_eq_true]
  refine or_congr_right (exists_congr fun x => and_congr_right fun near => ?_)
  rw [State.canTrip_iff]
  exact and_iff_right (held x near)

end Taken

/-- Settles O19: each test finds what the rules say, and the trips of the REPORT touch the reporting hoist, its near
neighbours and, through the trip scope, the MOVING others. -/
theorem testsOfAReport : Obligations.TestsOfAReport := by
  intro s h k l elapsed config latest r t table sill zones stands outside lowered reference limit fast near faulty held
    any trips stopped
  have overtravel : s.overtravels h = true ↔ outside := by
    rw [State.overtravels_iff, State.claimZones_eq config latest]
  have overspeed : r.overspeeds s.timers.overspeedMargin elapsed = true ↔ fast := Hoist.overspeeds_iff config latest
  have tooNear : ∀ x, x ∈ s.tooCloseTo h ↔ near x := fun x => State.mem_tooCloseTo config latest
  have drive : r.driveFaults = true ↔ faulty := Hoist.driveFaults_iff latest
  have someNear : s.tooCloseTo h ≠ [] ↔ ∃ x, near x := by
    rw [ne_eq, List.eq_nil_iff_forall_not_mem, not_forall_not]
    exact exists_congr tooNear
  have found : s.reportCauses h elapsed ≠ [] ↔ any := by
    rw [State.reportCauses_ne_nil, overtravel, overspeed, someNear, drive]
  have first := s.reportCauses_head h elapsed
  simp only [overtravel, show (s.hoist h).overspeeds _ elapsed = true ↔ fast from overspeed, someNear,
    show (s.hoist h).driveFaults = true ↔ faulty from drive] at first
  have watched : any → r.state.supervised = true := by
    rintro (x | ⟨x | x | x, -⟩ | ⟨x, n⟩ | x)
    · exact x.1.1
    iterate 3 exact x ▸ rfl
    · exact n.2.2.1
    · exact x.1
  have nearHeld : ∀ x, near x → (s.hoist x).state.supervised = true := fun x n => n.2.2.2.1
  have tripping : s.testsTrip h elapsed = true ↔ trips := by
    rw [State.testsTrip_iff fun x m => nearHeld x ((tooNear x).1 m), found]
    exact or_congr_right (exists_congr fun x => and_congr_left fun _ => tooNear x)
  refine ⟨fun out => ?_, fun inside quick => ?_, fun inside slow close free => ?_, fun inside slow apart fault free => ?_,
    fun some_ => ?_, fun tripped => ?_, fun x n => ?_, fun x ne n => ?_, fun none_ => ?_,
    (s.actOnTests_acts h elapsed).only⟩
  · exact State.actOnTests_trips (State.canTrip_iff.2 out.1) (first.trans (if_pos out))
  · have can : stands := by rcases quick.1 with e | e | e <;> exact ⟨e ▸ rfl, e ▸ nofun⟩
    refine State.actOnTests_trips (State.canTrip_iff.2 can) ?_
    rw [first, if_neg inside, if_pos quick]
  · refine State.actOnTests_trips (State.canTrip_iff.2 free) ?_
    rw [first, if_neg inside, if_neg slow, if_pos close]
  · refine State.actOnTests_trips (State.canTrip_iff.2 free) ?_
    rw [first, if_neg inside, if_neg slow, if_neg fun ⟨x, n⟩ => apart x n, if_pos fault]
  · exact State.actOnTests_latched (watched some_) (found.2 some_)
  · exact State.actOnTests_tripped tripped
  · exact State.actOnTests_partner ((tooNear x).2 n) (nearHeld x n)
  · have result := State.actOnTests_bystander (elapsed := elapsed) config ne fun m => n ((tooNear x).1 m)
    refine ⟨fun stop here moving => result.trans (if_pos ⟨⟨⟨tripping.2 stop.1, stop.2⟩, here⟩, moving⟩),
      fun leave => result.trans (if_neg ?_)⟩
    rintro ⟨⟨⟨taken, scope⟩, here⟩, moving⟩
    rcases leave with out | out | out
    · exact out ⟨tripping.1 taken, scope⟩
    · rw [here] at out
      cases out
    · exact out moving
  · refine (State.actOnTests_quiet (by_contra fun some_ => none_ (found.1 some_))).trans ?_
    have speed : r.speed = l.speed := by
      unfold Hoist.speed
      rw [latest]
    unfold Hoist.lowered
    rw [Hoist.loweredAllowance_eq config, show (s.hoist h).speed = l.speed from speed]
    rfl

end Sys2Proof.Machine
end

section
/-! ## O44: TRANSFER opens a handover -/

namespace Sys2Proof.Machine

/-! ### Operands -/

theorem transferKindOf_eq_some {b : Byte} {k : TransferKind} (e : b.toNat = k.code) : transferKindOf b = some k := by
  have : b = BitVec.ofNat 8 k.code := BitVec.eq_of_toNat_eq (by rw [e]; cases k <;> rfl)
  rw [this]
  cases k <;> rfl

theorem selectorOf_eq_some {b : Byte} {slot : Option Nat}
    (e : b.toNat = slot.getD 255) (low : ∀ i, slot = some i → i ≤ 7) : selectorOf b = some slot := by
  unfold selectorOf
  cases slot with
  | some i => rw [e, Option.getD_some, if_pos (low i rfl)]
  | none => rw [e, Option.getD_none, if_neg (by decide), if_pos (BitVec.eq_of_toNat_eq e)]

theorem namedMass_eq_some {b : Byte} {mass : Option MassId}
    (e : b.toNat = mass.elim 0 fun m => m.val + 1) : namedMass b = some mass := by
  unfold namedMass
  cases mass with
  | none => rw [if_pos (BitVec.eq_of_toNat_eq e)]
  | some m =>
    rw [if_neg (by rintro rfl; exact absurd e (Nat.succ_ne_zero _).symm)]
    unfold massOf
    rw [numbered_eq_some e]

/-! ### The docking landing (R123, check 4) -/

section Nearest

variable {f : LandingId → Option Nat} {l : LandingId} {d : Nat} {ls : List LandingId}

theorem foldl_nearerLanding_keeps (least : ∀ y ∈ ls, ∀ x, f y = some x → d ≤ x) :
    ls.foldl (fun best y => nearerLanding best y (f y)) (some (l, d)) = some (l, d) := by
  induction ls with
  | nil => rfl
  | cons y ys ih =>
    have same : nearerLanding (some (l, d)) y (f y) = some (l, d) := by
      cases e : f y with
      | none => rfl
      | some x => exact if_neg (Nat.not_lt.2 (least y List.mem_cons_self x e))
    rw [List.foldl_cons, same]
    exact ih fun z m => least z (List.mem_cons_of_mem y m)

/-- Of landings in order, the nearest is found, the first on equal distance. -/
theorem foldl_nearerLanding {best : Option (LandingId × Nat)} (sorted : ls.Pairwise (· < ·)) (m : l ∈ ls)
    (here : f l = some d) (nearest : ∀ y ∈ ls, ∀ x, f y = some x → d < x ∨ d = x ∧ l ≤ y)
    (worse : ∀ b, best = some b → d < b.2) :
    ls.foldl (fun best y => nearerLanding best y (f y)) best = some (l, d) := by
  induction ls generalizing best with
  | nil => cases m
  | cons y ys ih =>
    obtain ⟨first, sorted⟩ := List.pairwise_cons.1 sorted
    rw [List.foldl_cons]
    by_cases e : l = y
    · subst e
      have taken : nearerLanding best l (f l) = some (l, d) := by
        rw [here]
        cases best with
        | none => rfl
        | some b => exact if_pos (worse b rfl)
      rw [taken]
      exact foldl_nearerLanding_keeps fun z m x found =>
        (nearest z (List.mem_cons_of_mem l m) x found).elim Nat.le_of_lt fun same => same.1.le
    · have rest := (List.mem_cons.1 m).resolve_left e
      refine ih sorted rest (fun z m => nearest z (List.mem_cons_of_mem y m)) fun b chosen => ?_
      have farther : ∀ x, f y = some x → d < x := fun x found =>
        (nearest y List.mem_cons_self x found).resolve_right fun same => absurd (first l rest) (not_lt.2 same.2)
      unfold nearerLanding at chosen
      split at chosen
      · split at chosen
        · cases chosen
          exact farther _ ‹_›
        · cases chosen
          exact worse _ rfl
      · cases chosen
        exact farther _ ‹_›
      · exact worse b chosen

end Nearest

section Docking

variable {s : State} {h : HoistId} {k : HoistConfig} {l : LandingId} {rec : LandingRec}

theorem State.DocksAt.dockingLanding (docks : s.DocksAt h k.compartment l rec) :
    s.dockingLanding k.compartment (s.hoist h).depth = some l := by
  obtain ⟨record, serves, within, nearest, -⟩ := docks
  have here : s.dockingDistance k.compartment (s.hoist h).depth l =
      some ((rec.sill : Int) - (s.hoist h).depth).natAbs := by
    unfold State.dockingDistance
    rw [record]
    exact if_pos ⟨serves, within⟩
  unfold State.dockingLanding
  rw [foldl_nearerLanding (best := none) (by decide) (mem_allLandings l) here ?_ nofun]
  · rfl
  · intro y _ x found
    unfold State.dockingDistance at found
    split at found
    · rename_i other record'
      dsimp only at found
      split at found
      · rename_i fits
        cases found
        exact nearest y other record' fits.1 fits.2
      · cases found
    · cases found

theorem State.DocksAt.landingInRun (docks : s.DocksAt h k.compartment l rec)
    (config : (s.hoist h).config = some k) : s.landingInRun (s.hoist h) l = true := by
  obtain ⟨-, -, -, -, z, low, high, kind, held, before⟩ := docks
  have table : s.tableOf (s.hoist h) = (s.comp k.compartment).committed := by
    unfold State.tableOf
    rw [config]
  have first : (s.comp k.compartment).committed.zones.find? (fun z => (s.comp k.compartment).committed.namesAt l z) =
      some z :=
    ZoneTable.find_zones_eq_some.2 ⟨⟨low, high⟩, beq_iff_eq.2 kind, fun y one less is =>
      before y one less (beq_iff_eq.1 is)⟩
  unfold State.landingInRun
  rw [table, first]
  exact held

end Docking

/-! ### The other checks (R123, checks 5 to 10) -/

theorem State.slotAt_eq {s : State} {l : LandingId} {rec : LandingRec} (record : (s.landing l).record = some rec)
    (i : Nat) : s.slotAt l i = rec.slots[i]?.getD .empty := by
  unfold State.slotAt
  rw [record]
  exact List.getD_eq_getElem?_getD

theorem TransferRequest.massOn_eq_some {q : TransferRequest} {r : Hoist} {m : MassId} (e : q.massOn r = some m) :
    if q.kind = .deposit then r.carried = .mass m else q.mass = some m := by
  unfold TransferRequest.massOn at e
  split at e
  · rename_i kind
    rw [if_pos kind]
    unfold Carried.known at e
    split at e
    · rename_i carried
      rw [carried, Option.some.inj e]
    · cases e
    · cases e
  · rename_i kind
    rwa [if_neg (by rw [kind]; exact nofun)]

theorem State.mem_handovers {s : State} {v : Handover} : v ∈ s.handovers ↔ ∃ l, v ∈ (s.landing l).queue := by
  unfold State.handovers
  simp only [List.mem_flatMap, mem_allLandings, true_and]

section Fits

variable {s : State} {h : HoistId} {k : HoistConfig} {l : LandingId} {rec : LandingRec} {q : TransferRequest}

theorem State.TransferFits.doubleUse (fits : s.TransferFits h k.compartment l rec q) :
    s.doubleUse l q (s.hoist h) = false := by
  unfold State.doubleUse
  refine Bool.or_eq_false_iff.2 ⟨?_, ?_⟩
  · split
    · rename_i m named
      refine List.any_eq_false.2 fun v held => ?_
      obtain ⟨y, m'⟩ := State.mem_handovers.1 held
      rw [beq_iff_eq]
      exact fits.masses y v m' m (TransferRequest.massOn_eq_some named)
    · rfl
  · split
    · rename_i i named
      refine List.any_eq_false.2 fun v held => ?_
      rw [beq_iff_eq]
      exact fits.slots v held i named
    · rfl

theorem State.TransferFits.carriedFits (fits : s.TransferFits h k.compartment l rec q) :
    q.carriedFits (s.hoist h) = true := by
  have carried := fits.carried
  unfold TransferRequest.carriedFits
  split
  · rename_i kind
    rw [if_pos kind] at carried
    obtain ⟨m, carried⟩ := carried
    rw [carried]
    rfl
  · rename_i kind
    rw [if_neg (by rw [kind]; exact nofun)] at carried
    exact beq_iff_eq.2 carried

theorem State.TransferFits.slotFits (fits : s.TransferFits h k.compartment l rec q)
    (record : (s.landing l).record = some rec) : s.slotFits l q = true := by
  have slot := fits.slot
  have mass := fits.mass
  unfold State.slotFits
  simp only [State.slotAt_eq record]
  split
  · rename_i i kind named
    obtain ⟨empty, -⟩ | ⟨-, -, other, -⟩ := slot i named
    · rw [empty]
      rfl
    · exact nomatch kind.symm.trans other
  · rfl
  · rename_i i m kind named asked
    obtain ⟨-, other⟩ | ⟨m', occupied, -, same | none_⟩ := slot i named
    · exact nomatch kind.symm.trans other
    · rw [occupied, Option.some.inj (asked.symm.trans same)]
      exact beq_self_eq_true _
    · exact nomatch asked.symm.trans none_
  · rename_i i kind named _
    obtain ⟨-, other⟩ | ⟨m', occupied, -⟩ := slot i named
    · exact nomatch kind.symm.trans other
    · rw [occupied]
      rfl
  · rename_i m _ _ asked
    rw [record]
    exact List.contains_iff_mem.2 (mass m asked).2
  · rfl

theorem State.transferAt_eq (fits : s.TransferFits h k.compartment l rec q)
    (record : (s.landing l).record = some rec) :
    s.transferAt h k l q = (s.openTransfer h l q).acceptWith (l.val + 1) := by
  have slots : (s.landing l).slotCount = rec.slots.length := by
    unfold Landing.slotCount
    rw [record]
  have sides : (s.landing l).queue.any (fun v => (s.hoist v.hoist).inCompartment k.compartment) = false :=
    List.any_eq_false.2 fun v m => Bool.eq_false_iff.1 (fits.sides v m)
  unfold State.transferAt
  dsimp only
  refine (if_neg ?_).trans ?_
  · split
    · rename_i i named
      rw [slots, decide_eq_true_eq, not_le]
      exact fits.index i named
    · exact Bool.false_ne_true
  · rw [fits.survey, if_neg Bool.false_ne_true, sides,
      if_neg fun full => full.elim (Nat.not_le.2 fits.room) Bool.false_ne_true, fits.doubleUse, if_neg Bool.false_ne_true,
      fits.carriedFits, if_neg (Bool.false_ne_true ∘ Eq.symm), fits.slotFits record,
      if_neg (Bool.false_ne_true ∘ Eq.symm)]

/-- A TRANSFER that passes its checks is opened (R123, R124). -/
theorem State.transfer_eq {b kd sel mb : Byte} (number : b.toNat = h.val + 1) (config : (s.hoist h).config = some k)
    (held : (s.comp k.compartment).state = .supervised) (ready : (s.hoist h).state = .ready)
    (kind : kd.toNat = q.kind.code) (selector : sel.toNat = q.slot.getD 255)
    (few : rec.slots.length ≤ 8) (mass : mb.toNat = q.mass.elim 0 fun m => m.val + 1)
    (docks : s.DocksAt h k.compartment l rec) (fits : s.TransferFits h k.compartment l rec q) :
    s.transfer b kd sel mb = (s.openTransfer h l q).acceptWith (l.val + 1) := by
  have low : ∀ i, q.slot = some i → i ≤ 7 := fun i named => by
    have := fits.index i named
    omega
  unfold State.transfer
  rw [State.configuredHoist_eq number config, namedMass_eq_some mass]
  dsimp only
  rw [transferKindOf_eq_some kind, selectorOf_eq_some selector low]
  dsimp only
  rw [if_neg fun both => ?_]
  · unfold State.transferTo
    rw [config]
    dsimp only
    rw [State.supervised_iff.2 held, if_neg (Bool.false_ne_true ∘ Eq.symm), if_neg (not_not.2 ready),
      docks.dockingLanding]
    dsimp only
    rw [docks.landingInRun config, if_neg (Bool.false_ne_true ∘ Eq.symm)]
    exact State.transferAt_eq fits docks.1
  · obtain ⟨m, named⟩ := Option.isSome_iff_exists.1 both.2
    exact nomatch both.1.symm.trans (fits.mass m named).1

end Fits

/-! ### The handover that is opened (R124) -/

/-- The mass of a TRANSFER from acceptance: the carried one for a DEPOSIT, the named one for a COLLECT, or, for a COLLECT
that names a slot alone, the one the slot holds (log 21). -/
theorem State.TransferFits.acceptedMass {s : State} {h : HoistId} {c : Compartment} {l : LandingId} {rec : LandingRec}
    {q : TransferRequest} (fits : s.TransferFits h c l rec q) (record : (s.landing l).record = some rec) :
    s.acceptedMass l q (s.hoist h) =
      match q.kind, q.slot, q.mass, (s.hoist h).carried with
      | .deposit, _, _, .mass m => some m
      | .collect, some i, none, _ =>
        match rec.slots[i]? with
        | some (.occupied m) => some m
        | _ => none
      | _, _, m, _ => m := by
  have carried := fits.carried
  obtain ⟨kind, slot, mass⟩ := q
  unfold State.acceptedMass
  simp only [State.slotAt_eq record]
  cases kind with
  | deposit =>
    obtain ⟨m, carried⟩ : ∃ m, (s.hoist h).carried = .mass m := carried
    unfold TransferRequest.massOn
    rw [carried]
    rfl
  | collect =>
    cases slot with
    | none => rfl
    | some i =>
      cases mass with
      | some m => rfl
      | none =>
        dsimp only
        cases rec.slots[i]? with
        | none => rfl
        | some st => cases st <;> rfl

/-- A READY hoist as a TRANSFER docks it: the demand-age timer runs on (R33, R124). -/
def Hoist.docked (r : Hoist) : Hoist :=
  { r with
    state := .docked
    tripLineOpen := false
    engageTimer := none
    proofTimer := none
    stopAllowance := none
    envDown := 0
    envUp := 0 }

theorem Hoist.atState_docked {r : Hoist} (ready : r.state = .ready) (now : Nat) (t : TimerSettings) :
    r.atState now t .docked = r.docked := by
  unfold Hoist.atState Hoist.inState Hoist.docked
  rw [ready]
  rfl

/-- A landing with one handover more. -/
def Landing.queued (x : Landing) (v : Handover) : Landing := { x with queue := x.queue ++ [v] }

/-- A landing with one handover more, which holds its shuttle. -/
def Landing.heldBy (x : Landing) (v : Handover) : Landing :=
  { x with queue := x.queue ++ [v], holder := .handover v.hoist }

/-! ### A landing changed more than once -/

section

variable (s : State) (l : LandingId)

theorem State.modLanding_setLanding (y : Landing) (f : Landing → Landing) :
    (s.setLanding l y).modLanding l f = s.setLanding l (f y) := by
  unfold State.modLanding
  rw [State.setLanding_landing_self, State.setLanding_setLanding]

theorem State.setLanding_same : s.setLanding l (s.landing l) = s := by
  unfold State.setLanding State.landing
  rw [Vector.set_getElem_self]

theorem State.enter_eq (h : HoistId) (st : HoistState) : s.enter h st = s.setHoist h ((s.enter h st).hoist h) := by
  unfold State.enter State.recompute State.modHoist
  rw [State.setHoist_hoist_self, State.setHoist_hoist_self, State.setHoist_setHoist]

end

/-- A change of one hoist's record in a queue where the hoist's record is the last. -/
theorem map_queued {xs : List Handover} {v : Handover} (others : ∀ w ∈ xs, w.hoist ≠ v.hoist) (f : Handover → Handover) :
    ((xs ++ [v]).map fun w => if w.hoist = v.hoist then f w else w) = xs ++ [f v] := by
  rw [List.map_append, List.map_singleton, if_pos rfl, List.map_congr_left fun w m => if_neg (others w m), List.map_id']

/-! ### The choice of the slot (R121) -/

theorem State.chooseSlot_congr {s t : State} {l : LandingId} {rec : LandingRec} {v : Handover}
    (slots : ∀ i, t.slotAt l i = s.slotAt l i) (used : ∀ i, t.passedOver l v.hoist i = s.passedOver l v.hoist i) :
    t.chooseSlot l rec v = s.chooseSlot l rec v := by
  unfold State.chooseSlot
  simp only [slots, used]

theorem State.slotAt_congr {s t : State} {l : LandingId} (record : (t.landing l).record = (s.landing l).record) (i : Nat) :
    t.slotAt l i = s.slotAt l i := by
  unfold State.slotAt
  rw [record]

/-- A handover does not stand in the way of its own choice. -/
theorem State.passedOver_queued {s t : State} {l : LandingId} {v : Handover}
    (others : ∀ y, y ≠ l → t.landing y = s.landing y)
    (here : (t.landing l).queue = (s.landing l).queue ++ [v] ∧ (t.landing l).record = (s.landing l).record) (i : Nat) :
    t.passedOver l v.hoist i = s.passedOver l v.hoist i := by
  obtain ⟨queue, record⟩ := here
  have masses : ∀ m, t.massInOtherHandover v.hoist m = s.massInOtherHandover v.hoist m := by
    intro m
    unfold State.massInOtherHandover State.handovers
    rw [List.any_flatMap, List.any_flatMap]
    refine congrArg (List.any allLandings) (funext fun y => ?_)
    by_cases e : y = l
    · rw [e, queue, List.any_append]
      simp
    · rw [others y e]
  unfold State.passedOver
  rw [queue, State.slotAt_congr record, List.any_append]
  simp [masses]

/-- The slot chosen once the handover is queued, its hoist changed and the shuttle taken is the one chosen before. -/
theorem State.chooseSlot_held {s : State} {l : LandingId} {rec : LandingRec} {v : Handover} (h : HoistId) (r : Hoist) :
    ((s.setHoist h r).setLanding l ((s.landing l).heldBy v)).chooseSlot l rec v = s.chooseSlot l rec v := by
  have here : ((s.setHoist h r).setLanding l ((s.landing l).heldBy v)).landing l = (s.landing l).heldBy v :=
    State.setLanding_landing_self ..
  refine State.chooseSlot_congr (State.slotAt_congr (by rw [here]; rfl)) (State.passedOver_queued (fun y ne => ?_) ?_)
  · exact State.setLanding_landing_ne _ ne _
  · rw [here]
    exact ⟨rfl, rfl⟩

/-! ### The arbiter with one handover (R126, R127) -/

section

variable {s : State} {l : LandingId}

theorem State.arbiterFor_taken (taken : (s.landing l).shuttleFree = false) (n : Nat) : State.arbiterFor l n s = s := by
  cases n with
  | zero => rfl
  | succ n =>
    unfold State.arbiterFor
    rw [taken, if_neg Bool.false_ne_true]

theorem State.arbiterFor_nobody (none_ : (s.landing l).queue.filter (fun v => v.phase == .waiting) = []) (n : Nat) :
    State.arbiterFor l n s = s := by
  cases n with
  | zero => rfl
  | succ n =>
    unfold State.arbiterFor
    rw [none_]
    exact ite_self s

theorem State.arbiterFor_one {v : Handover} (free : (s.landing l).shuttleFree = true)
    (one : (s.landing l).queue.filter (fun v => v.phase == .waiting) = [v]) (n : Nat) :
    State.arbiterFor l (n + 1) s = State.arbiterFor l n (s.grant l v) := by
  rw [State.arbiterFor, free, if_pos rfl, one]
  simp

end

section Grant

/-- A handover as its grant leaves it (R127). -/
def Handover.granted (v : Handover) (s : State) (i : Nat) (m : MassId) : Handover :=
  { v with slot := some i, mass := some m, phase := .latching, timer := some (s.now + 1000 * s.timers.latchLimit) }

/-- A grant by the choice of the slot, made once the shuttle is held (R127). -/
theorem State.grant_eq {s u : State} {l : LandingId} {v : Handover} {rec : LandingRec}
    (held : (s.modLanding l fun x => { x with holder := .handover v.hoist }) = u)
    (record : (u.landing l).record = some rec) :
    s.grant l v = (u.chooseSlot l rec v).elim ((u.latch .handover).removeHandover l v.hoist) fun c =>
      ((u.setSlot l c.1 (.reserved c.2)).modHandover l v.hoist fun _ => v.granted u c.1 c.2).requestFor l
        (v.granted u c.1 c.2) .latch := by
  subst held
  unfold State.grant
  dsimp only
  rw [record]
  dsimp only
  cases State.chooseSlot _ l rec v <;> rfl

variable (s : State) (l : LandingId) {x : Landing} {rec : LandingRec} {v : Handover}

theorem State.queued_held : ((s.setLanding l (x.queued v)).modLanding l fun x => { x with holder := .handover v.hoist }) =
    s.setLanding l (x.heldBy v) := State.modLanding_setLanding ..

/-- A grant that finds a slot reserves it and asks for LATCH (R127). -/
theorem State.grant_chosen (record : x.record = some rec) (others : ∀ w ∈ x.queue, w.hoist ≠ v.hoist) {i : Nat}
    {m : MassId} (chosen : (s.setLanding l (x.heldBy v)).chooseSlot l rec v = some (i, m)) :
    (s.setLanding l (x.queued v)).grant l v =
      (s.setLanding l
        { x with
          record := some { rec with slots := rec.slots.set i (.reserved m) }
          holder := .handover v.hoist
          queue := x.queue ++ [v.granted s i m] }).give .field
        (makeFrame (byte rec.station) kindShuttleReq [1, byte (s.hoist v.hoist).side, byte i]) := by
  rw [State.grant_eq (s.queued_held l) (by rw [State.setLanding_landing_self]; exact record), chosen, Option.elim_some]
  unfold State.setSlot State.modRecord State.modHandover
  rw [State.modLanding_setLanding, State.modLanding_setLanding]
  unfold State.requestFor State.request Landing.stationByte Landing.heldBy
  dsimp only
  rw [State.setLanding_landing_self, map_queued others, record]
  rfl

/-- A grant that finds no slot closes the handover and latches HANDOVER (R127, R131). -/
theorem State.grant_unchosen (record : x.record = some rec) (free : x.holder = .none)
    (others : ∀ w ∈ x.queue, w.hoist ≠ v.hoist) (docked : (s.hoist v.hoist).state = .docked)
    (none_ : (s.setLanding l (x.heldBy v)).chooseSlot l rec v = none) :
    (s.setLanding l (x.queued v)).grant l v = ((s.latch .handover).setLanding l x).enter v.hoist .ready := by
  have removed : (x.queue ++ [v]).filter (fun w => w.hoist != v.hoist) = x.queue := by
    rw [List.filter_append, List.filter_eq_self.2 fun w m => bne_iff_ne.2 (others w m)]
    simp
  rw [State.grant_eq (s.queued_held l) (by rw [State.setLanding_landing_self]; exact record), none_, Option.elim_none]
  change State.removeHandover ((s.latch .handover).setLanding l (x.heldBy v)) l v.hoist = _
  unfold State.removeHandover
  rw [State.modLanding_setLanding]
  unfold Landing.heldBy
  dsimp only
  rw [removed, if_pos rfl, ← free]
  exact if_pos docked

end Grant

/-! ### TRANSFER opened (R124) -/

section Opening

variable {s : State} {h : HoistId} {l : LandingId} {q : TransferRequest} {v : Handover}

theorem State.openTransfer_eq (ready : (s.hoist h).state = .ready) (opened : s.openedHandover h l q = v) :
    let u := (s.setHoist h (s.hoist h).docked).setLanding l ((s.landing l).queued v)
    s.openTransfer h l q = if (s.landing l).shuttleFree = true then u.arbiter l else u.markWaited l h := by
  intro u
  have docked : (s.modLanding l fun x => { x with queue := x.queue ++ [v] }).enter h .docked = u := by
    rw [State.enter_rest _ _ rfl, State.hoist_modLanding, Hoist.atState_docked ready]
    rfl
  unfold State.openTransfer
  dsimp only
  rw [opened, docked]

/-- With the shuttle not free the handover waits, marked as having waited (R124). -/
theorem State.openTransfer_waits (ready : (s.hoist h).state = .ready) (opened : s.openedHandover h l q = v)
    (others : ∀ w ∈ (s.landing l).queue, w.hoist ≠ h) (busy : (s.landing l).holder ≠ .none ∨ (s.landing l).shuttle ≠ .idle) :
    s.openTransfer h l q =
      (s.setHoist h { (s.hoist h).docked with move := (s.hoist h).move.map fun m => { m with waited := true } }).setLanding l
        ((s.landing l).queued { v with waited := true }) := by
  have free : ¬(s.landing l).shuttleFree = true := by
    unfold Landing.shuttleFree
    rw [Bool.and_eq_true, beq_iff_eq, beq_iff_eq]
    exact fun both => busy.elim (· both.1) (· both.2)
  obtain rfl : h = v.hoist := opened ▸ rfl
  rw [State.openTransfer_eq ready opened, if_neg free]
  unfold State.markWaited State.modHandover
  rw [State.modLanding_setLanding]
  unfold Landing.queued
  dsimp only
  rw [map_queued others]
  change State.setLanding (State.modHoist (s.setHoist v.hoist _) v.hoist Hoist.setWaited) l _ = _
  unfold State.modHoist Hoist.setWaited
  rw [State.setHoist_hoist_self, Hoist.modMove_eq, State.setHoist_setHoist]
  rfl

variable (ready : (s.hoist h).state = .ready) (opened : s.openedHandover h l q = v)
  (others : ∀ w ∈ (s.landing l).queue, w.hoist ≠ h) (free : (s.landing l).holder = .none)
  (idle : (s.landing l).shuttle = .idle) (nobody : ∀ w ∈ (s.landing l).queue, w.phase ≠ .waiting)

include ready opened free idle nobody

/-- With the shuttle free and nothing else waiting the arbiter grants it the handover (R126). -/
theorem State.openTransfer_grants :
    s.openTransfer h l q = State.arbiterFor l (s.landing l).queue.length
      (((s.setHoist h (s.hoist h).docked).setLanding l ((s.landing l).queued v)).grant l v) := by
  have shuttle : (s.landing l).shuttleFree = true := by
    unfold Landing.shuttleFree
    rw [free, idle]
    rfl
  have here : ((s.setHoist h (s.hoist h).docked).setLanding l ((s.landing l).queued v)).landing l =
      (s.landing l).queued v := State.setLanding_landing_self ..
  have waits : v.phase = .waiting := opened ▸ rfl
  have one : ((s.landing l).queued v).queue.filter (fun w => w.phase == .waiting) = [v] := by
    unfold Landing.queued
    rw [List.filter_append, List.filter_eq_nil_iff.2 fun w m => by rw [beq_iff_eq]; exact nobody w m]
    simp [waits]
  have length : ((s.landing l).queued v).queue.length = (s.landing l).queue.length + 1 := List.length_append
  rw [State.openTransfer_eq ready opened, if_pos shuttle]
  unfold State.arbiter
  rw [here, length, State.arbiterFor_one (by rw [here]; exact shuttle) (by rw [here]; exact one)]

include others

/-- With a slot to be had it is reserved, and LATCH goes out (R127). -/
theorem State.openTransfer_chosen {k : HoistConfig} {rec : LandingRec} (config : (s.hoist h).config = some k)
    (record : (s.landing l).record = some rec) {i : Nat} {m : MassId} (chosen : s.chooseSlot l rec v = some (i, m)) :
    s.openTransfer h l q =
      ((s.setHoist h (s.hoist h).docked).setLanding l
        { s.landing l with
          record := some { rec with slots := rec.slots.set i (.reserved m) }
          holder := .handover h
          queue := (s.landing l).queue ++ [v.granted s i m] }).give .field
        (makeFrame (byte rec.station) kindShuttleReq [1, byte k.compartment.code, byte i]) := by
  obtain rfl : h = v.hoist := opened ▸ rfl
  have side : ((s.setHoist v.hoist (s.hoist v.hoist).docked).hoist v.hoist).side = k.compartment.code := by
    rw [State.setHoist_hoist_self]
    unfold Hoist.side Hoist.docked
    rw [config]
  rw [State.openTransfer_grants ready opened free idle nobody, State.grant_chosen _ l record others, side]
  · refine State.arbiterFor_taken ?_ _
    rw [State.landing_give, State.setLanding_landing_self]
    rfl
  · rw [State.chooseSlot_held, chosen]

/-- With no slot to be had the handover closes at once, and HANDOVER is latched (R127, R131). -/
theorem State.openTransfer_unchosen {rec : LandingRec} (record : (s.landing l).record = some rec)
    (none_ : s.chooseSlot l rec v = none) :
    ∃ down up, s.openTransfer h l q =
      (s.setHoist h { (s.hoist h).docked with state := .ready, envDown := down, envUp := up }).latch .handover := by
  obtain rfl : h = v.hoist := opened ▸ rfl
  have closed := State.openTransfer_grants ready opened free idle nobody
  rw [State.grant_unchosen _ l record free others (by rw [State.setHoist_hoist_self]; rfl)
    (by rw [State.chooseSlot_held, none_])] at closed
  have same : ((s.setHoist v.hoist (s.hoist v.hoist).docked).latch .handover).setLanding l (s.landing l) =
      (s.setHoist v.hoist (s.hoist v.hoist).docked).latch .handover := State.setLanding_same _ l
  rw [same, State.arbiterFor_nobody, State.enter_eq] at closed
  · obtain ⟨down, up, self⟩ := State.hoist_enter_self ((s.setHoist v.hoist (s.hoist v.hoist).docked).latch .handover)
      v.hoist .ready
    rw [self, State.hoist_latch, State.setHoist_hoist_self] at closed
    refine ⟨down, up, closed.trans ?_⟩
    change State.latch ((s.setHoist _ _).setHoist _ _) _ = _
    rw [State.setHoist_setHoist]
    rfl
  · exact List.filter_eq_nil_iff.2 fun w m => by rw [beq_iff_eq]; exact nobody w m

end Opening

theorem State.TransferFits.received {s : State} {h : HoistId} {c : Compartment} {l : LandingId} {rec : LandingRec}
    {q : TransferRequest} (fits : s.TransferFits h c l rec q) : (s.received .uplink).TransferFits h c l rec q := by
  obtain ⟨index, survey, room, sides, masses, slots, carried, slot, mass⟩ := fits
  exact ⟨index, survey, room, sides, masses, slots, carried, slot, mass⟩

/-- Settles O44: a TRANSFER that passes its checks docks its hoist and queues the handover, which the arbiter grants alone or
which waits. -/
theorem transferOpensAHandover : Obligations.TransferOpensAHandover := by
  intro o b kd sel mb s h k l rec q takes number config held ready kind selector few massByte docks fits r x mass v docked
    out
  have fits' := fits.received
  have accepted : (s.received .uplink).transfer b kd sel mb =
      ((s.received .uplink).openTransfer h l q).acceptWith (l.val + 1) :=
    State.transfer_eq number config held ready kind (selector.trans (by cases q.slot <;> rfl)) few
      (massByte.trans (by cases q.mass <;> rfl)) docks fits'
  have opened : (s.received .uplink).openedHandover h l q = v := by
    unfold State.openedHandover
    rw [fits'.acceptedMass docks.1]
    rfl
  have inside : (s.hoist h).inCompartment k.compartment = true := Hoist.inCompartment_iff.2 ⟨k, config, rfl⟩
  have others : ∀ w ∈ ((s.received .uplink).landing l).queue, w.hoist ≠ h := by
    rintro w m rfl
    rw [fits.sides w m] at inside
    cases inside
  have answers : ∀ t, (s.received .uplink).openTransfer h l q = t.received .uplink → out t := by
    intro t opens
    rw [opens] at accepted
    exact order_answered takes accepted
  refine ⟨fun free idle nobody => ⟨fun i m chosen => answers _ ?_, fun none_ => ?_⟩, fun busy => answers _ ?_⟩
  · refine (State.openTransfer_chosen (s := s.received .uplink) ready opened others free idle nobody config docks.1
      chosen).trans ?_
    cases k.compartment <;> rfl
  · obtain ⟨down, up, closed⟩ := State.openTransfer_unchosen (s := s.received .uplink) ready opened others free idle
      nobody docks.1 none_
    exact ⟨_, answers _ (closed.trans rfl), rfl⟩
  · exact State.openTransfer_waits (s := s.received .uplink) ready opened others busy

end Sys2Proof.Machine
end

section
/-! ## O59: the envelope is the greatest speed that is safe -/

namespace Sys2Proof.Machine

/-! ### The integer root and the least of a list -/

/-- The search keeps the root between what is found and the next power of two above it. -/
theorem isqrtFrom_eq_sqrt {n : Nat} :
    ∀ {k r : Nat}, r * r ≤ n → n < (r + 2 ^ k) * (r + 2 ^ k) → isqrtFrom n k r = n.sqrt
  | 0, _, low, high => Nat.eq_sqrt.2 ⟨low, high⟩
  | k + 1, r, low, high => by
    unfold isqrtFrom
    split
    next bit => exact isqrtFrom_eq_sqrt bit (by rwa [Nat.pow_succ', Nat.two_mul, ← Nat.add_assoc] at high)
    next clear => exact isqrtFrom_eq_sqrt low (not_le.1 clear)

theorem isqrt_eq_sqrt (n : Nat) : isqrt n = n.sqrt := by
  refine isqrtFrom_eq_sqrt (Nat.zero_le n) ?_
  calc n < 2 ^ (n.log2 + 1) := Nat.lt_log2_self
    _ ≤ 2 ^ ((n.log2 / 2 + 1) + (n.log2 / 2 + 1)) := Nat.pow_le_pow_right (by decide) (by omega)
    _ = _ := by rw [Nat.pow_add, Nat.zero_add]

/-- The integer root is the greatest number whose square does not exceed the argument. -/
theorem le_isqrt {w n : Nat} : w ≤ isqrt n ↔ w ^ 2 ≤ n := by
  rw [isqrt_eq_sqrt, Nat.le_sqrt']

theorem le_least {w : Nat} {rest : List Nat} : ∀ {first : Nat}, w ≤ least first rest ↔ w ≤ first ∧ ∀ v ∈ rest, w ≤ v := by
  unfold least
  induction rest with
  | nil => simp
  | cons v rest ih => simp [ih, and_assoc]

/-! ### The four terms -/

variable {t : ZoneTable} {floor guard w z : Nat} {r : Hoist} {d : Direction}

/-- T1 (R83). -/
theorem le_effectiveCeiling {degraded : Nat} :
    w ≤ effectiveCeiling degraded r ↔ w ≤ r.profileCeiling ∧ (r.proofStatus ≠ .current → w ≤ degraded) := by
  unfold effectiveCeiling
  cases r.proofStatus <;> simp

/-- T2 (R84). -/
theorem le_presentCeilings :
    (∀ v ∈ presentCeilings t floor r, w ≤ v) ↔
      ∀ z ∈ runZones (t.overlap floor r.spanTop r.depth), w ≤ (t.entry z).ceiling :=
  List.forall_mem_map

/-- The target that applies in a direction (R86). -/
theorem appliedTarget_eq_some {x : Nat} :
    appliedTarget r d = some x ↔ r.state = .moving ∧ ∃ m, r.move = some m ∧ m.isOpen = true ∧ m.target = x ∧
      if d = .down then r.depth < x else x < r.depth := by
  unfold appliedTarget
  split
  next m state move =>
    simp only [state, move, Option.some.injEq, exists_eq_left', true_and]
    cases d <;> simp only [Option.ite_none_right_eq_some, Option.some.injEq, if_true, reduceCtorEq, if_false] <;>
      exact ⟨fun ⟨⟨opened, way⟩, e⟩ => ⟨opened, e, e ▸ way⟩, fun ⟨opened, e, way⟩ => ⟨⟨opened, e ▸ way⟩, e⟩⟩
  next other =>
    exact ⟨nofun, fun ⟨state, m, move, _⟩ => (other m state move).elim⟩

theorem targetZone_eq {height x : Nat} :
    targetZone t floor height x d = t.zoneAt floor (if d = .down then x else x - height) := by
  cases d <;> rfl

theorem liesAhead_iff :
    liesAhead t floor r d z = true ↔ if d = .down then r.depth < t.upper z else t.lower floor z ≤ r.spanTop := by
  cases d <;> simp [liesAhead]

theorem approachDistance_eq :
    approachDistance t floor r d z = if d = .down then t.upper z - r.depth else r.spanTop - t.lower floor z := by
  cases d <;> rfl

theorem withinTarget_iff {tz : Option Nat} :
    withinTarget tz d z = true ↔ ∀ y, tz = some y → if d = .down then z ≤ y else y ≤ z := by
  cases tz <;> cases d <;> simp [withinTarget]

/-- T3 (R85, R87). -/
theorem le_approachTerms :
    (∀ v ∈ approachTerms t floor r d, w ≤ v) ↔ ∀ z ∈ runZones r.run,
      (if d = .down then r.depth < t.upper z else t.lower floor z ≤ r.spanTop) ∧
        (∀ x y, appliedTarget r d = some x → t.zoneAt floor (if d = .down then x else x - r.height) = some y →
          if d = .down then z ≤ y else y ≤ z) →
      w ^ 2 ≤ (t.entry z).ceiling ^ 2 +
        2 * r.decel * if d = .down then t.upper z - r.depth else r.spanTop - t.lower floor z := by
  unfold approachTerms
  rw [List.forall_mem_map]
  simp only [List.mem_filter, Bool.and_eq_true, and_imp, liesAhead_iff, withinTarget_iff, le_isqrt, approachDistance_eq]
  cases appliedTarget r d <;> simp [targetZone_eq, @forall_comm Nat (_ = _)]

/-- The run-limit distance (R88). -/
theorem runLimit_eq :
    runLimit t floor guard r d =
      match r.run with
      | some run =>
        if d = .down then t.lower floor run.bottom - r.depth - guard else r.spanTop - t.upper run.top - guard
      | none => if d = .down then 0 else r.spanTop - guard := by
  cases d <;> cases e : r.run <;> simp [runLimit, runBottom, runTop, e]

/-- T4 (R89). -/
theorem le_stopTerm :
    w ≤ stopTerm t floor guard r d ↔ w ^ 2 ≤ 2 * r.decel * runLimit t floor guard r d ∧
      ∀ x, appliedTarget r d = some x → w ^ 2 ≤ 2 * r.decel * if d = .down then x - r.depth else r.depth - x := by
  unfold stopTerm stopDistance
  rw [le_isqrt]
  cases appliedTarget r d <;> cases d <;> simp [← Nat.mul_min_mul_left]

/-! ### The envelope -/

/-- The envelope of a READY or MOVING hoist keeps each of its four terms (R90). -/
theorem State.le_envelope {s : State} (free : r.state.takesVelocity = true) :
    w ≤ s.envelope r d ↔
      w ≤ effectiveCeiling s.degradedCeiling r ∧
      (∀ v ∈ presentCeilings (s.tableOf r) s.shaft.floor r, w ≤ v) ∧
      (∀ v ∈ approachTerms (s.tableOf r) s.shaft.floor r d, w ≤ v) ∧
      w ≤ stopTerm (s.tableOf r) s.shaft.floor s.shaft.guard r d := by
  unfold State.envelope State.envelopeTerms
  rw [if_pos free, le_least]
  simp only [List.forall_mem_append, List.forall_mem_singleton, and_assoc]

/-- Settles O59: each of the four terms is a bound of its own, and the root of a term is the greatest speed whose square
keeps it. -/
theorem envelopeIsTheGreatestSafeSpeed : Obligations.EnvelopeIsTheGreatestSafeSpeed := by
  intro s r k d config
  refine ⟨fun notReady notMoving => s.envelope_rest d ?_, ?_⟩
  · exact Bool.eq_false_iff.2 fun free => (HoistState.takesVelocity_iff.1 free).elim notReady notMoving
  intro free table floor down applies ahead gap room w
  have height : r.height = k.height := by unfold Hoist.height; rw [config]
  have decel : r.decel = k.decel := by unfold Hoist.decel; rw [config]
  have governs : s.tableOf r = table := by unfold State.tableOf; rw [config]
  rw [State.le_envelope (HoistState.takesVelocity_iff.2 free), le_effectiveCeiling, le_presentCeilings, le_approachTerms,
    le_stopTerm, runLimit_eq, governs, height, decel]
  simp only [appliedTarget_eq_some, and_assoc]
  exact Iff.rfl

end Sys2Proof.Machine
end

section
/-! ## O56: MASK_WRITE, SCOPE_OPTIONS and TIMER_WRITE -/

namespace Sys2Proof.Machine

/-! ### MASK_WRITE -/

/-- The set without TRIP is the set in every other category (R115). -/
theorem withoutTrip_getLsbD (x : BitVec 13) (i : Nat) : (withoutTrip x).getLsbD i = (x.getLsbD i && decide (i ≠ 0)) := by
  have trip : Category.trip.set = 1#13 := rfl
  unfold withoutTrip
  rw [trip, BitVec.getLsbD_and, BitVec.getLsbD_not, BitVec.getLsbD_one]
  by_cases named : i < 13
  · simp [named]
  · simp [BitVec.getLsbD_of_ge x i (by omega)]

theorem State.maskWrite_received (s : State) {x : Half} (named : x.toNat < 8192) :
    (s.received .uplink).maskWrite x =
      ((s.setMask (withoutTrip (x.setWidth 13))).received .uplink, ⟨.accepted, 0, []⟩) :=
  if_pos named

theorem State.maskWrite_range (s : State) {x : Half} (beyond : 8192 ≤ x.toNat) : s.maskWrite x = s.refuse .range :=
  if_neg (by omega)

/-! ### SCOPE_OPTIONS -/

theorem byte_zero_or_one {b : Byte} (named : b.toNat ≤ 1) : b = 0 ∨ b = 1 := by bv_omega

theorem compartmentOf_named {b : Byte} (named : b.toNat ≤ 1) : ∃ c, compartmentOf b = some c := by
  rcases byte_zero_or_one named with rfl | rfl
  · exact ⟨.a, rfl⟩
  · exact ⟨.b, rfl⟩

theorem tripScopeOf_named {b : Byte} (named : b.toNat ≤ 1) :
    tripScopeOf b = some (if b = 0 then .isolate else .stopNeighbours) := by
  rcases byte_zero_or_one named with rfl | rfl <;> rfl

theorem staleActionOf_named {b : Byte} (named : b.toNat ≤ 1) :
    staleActionOf b = some (if b = 0 then .stop else .trip) := by
  rcases byte_zero_or_one named with rfl | rfl <;> rfl

theorem tripScopeOf_unnamed {b : Byte} (beyond : 1 < b.toNat) : tripScopeOf b = none := by
  unfold tripScopeOf
  rw [if_neg (by bv_omega), if_neg (by bv_omega)]

theorem staleActionOf_unnamed {b : Byte} (beyond : 1 < b.toNat) : staleActionOf b = none := by
  unfold staleActionOf
  rw [if_neg (by bv_omega), if_neg (by bv_omega)]

section

variable (s : State) {b x y : Byte}

theorem State.scopeOptions_target (beyond : 1 < b.toNat) : s.scopeOptions b x y = s.refuse .target := by
  unfold State.scopeOptions
  rw [compartmentOf_eq_none beyond]

theorem State.scopeOptions_range {c : Compartment} (names : compartmentOf b = some c) (beyond : 1 < x.toNat ∨ 1 < y.toNat) :
    s.scopeOptions b x y = s.refuse .range := by
  unfold State.scopeOptions
  rw [names]
  rcases beyond with scope | stale
  · rw [tripScopeOf_unnamed scope]
  · rw [staleActionOf_unnamed stale]
    cases tripScopeOf x <;> rfl

theorem State.scopeOptions_received {c : Compartment} (names : compartmentOf b = some c) (scope : x.toNat ≤ 1)
    (stale : y.toNat ≤ 1) :
    (s.received .uplink).scopeOptions b x y = ((s.modComp c fun k =>
      { k with
        tripScope := if x = 0 then .isolate else .stopNeighbours
        staleAction := if y = 0 then .stop else .trip }).received .uplink, ⟨.accepted, 0, []⟩) := by
  unfold State.scopeOptions
  rw [names, tripScopeOf_named scope, staleActionOf_named stale]
  dsimp only
  rw [State.modComp_received]
  rfl

end

/-! ### TIMER_WRITE -/

/-- Whether each of the eleven fields lies in its range, in order (R183). -/
def timerFits (p : TimerParams) : List Bool := (timerRanges p).map fun x => decide (x.2.1 ≤ x.1 ∧ x.1 ≤ x.2.2)

/-- The fault is where the first field fails. -/
theorem timerFault_eq (p : TimerParams) : timerFault p = ((timerFits p).findIdx? fun fit => !fit).map (· + 1) := by
  unfold timerFault timerFits
  simp only [List.findIdx?_map, Function.comp_def, Bool.decide_and]
  cases List.findIdx? _ (timerRanges p) <;> rfl

theorem timerFault_first {p : TimerParams} {n : Nat} (fails : (timerFits p)[n]? = some false)
    (before : ∀ j, j < n → (timerFits p)[j]? = some true) : timerFault p = some (n + 1) := by
  obtain ⟨inside, out⟩ := List.getElem?_eq_some_iff.1 fails
  have found : (timerFits p).findIdx? (fun fit => !fit) = some n := by
    refine List.findIdx?_eq_some_iff_getElem.2 ⟨inside, by rw [out]; rfl, fun j earlier => ?_⟩
    obtain ⟨_, fit⟩ := List.getElem?_eq_some_iff.1 (before j earlier)
    rw [fit]
    decide
  rw [timerFault_eq, found]
  rfl

theorem timerFault_none {p : TimerParams} (fit : ∀ x ∈ timerFits p, x = true) : timerFault p = none := by
  have found : (timerFits p).findIdx? (fun fit => !fit) = none :=
    List.findIdx?_eq_none_iff.2 fun x member => by rw [fit x member]; rfl
  rw [timerFault_eq, found]
  rfl

theorem State.timerWrite_fault (s : State) {p : TimerParams} {n : Nat} (fault : timerFault p = some n) :
    s.timerWrite p = s.refuseWith .range n := by
  unfold State.timerWrite
  rw [fault]

theorem State.timerWrite_received (s : State) {p : TimerParams} (sound : timerFault p = none) :
    (s.received .uplink).timerWrite p =
      (State.received { s with timers := timersOf p } .uplink, ⟨.accepted, 0, []⟩) := by
  unfold State.timerWrite
  rw [sound]
  rfl

/-- Settles O56, by the three orders and the branches of each; TIMER_WRITE's detail by `timerFault_first`. -/
theorem settingsAreWritten : Obligations.SettingsAreWritten := by
  intro o s takes
  refine ⟨fun x => ⟨fun beyond => ?_, fun named => ?_⟩, fun b x y => ?_, fun p => ?_⟩
  · exact order_answered takes (State.maskWrite_range _ beyond)
  · refine ⟨withoutTrip (x.setWidth 13), ?_, fun i low high => ?_,
      order_answered takes (State.maskWrite_received s named)⟩
    · rw [withoutTrip_getLsbD, decide_eq_false (by omega), Bool.and_false]
    · rw [withoutTrip_getLsbD, decide_eq_true (by omega), Bool.and_true, BitVec.getLsbD_setWidth, decide_eq_true high,
        Bool.true_and]
  · refine ⟨fun beyond => ?_, fun named beyond => ?_, fun isA scope stale => ?_, fun isB scope stale => ?_⟩
    · exact order_answered takes (State.scopeOptions_target _ beyond)
    · obtain ⟨c, names⟩ := compartmentOf_named named
      exact order_answered takes (State.scopeOptions_range _ names beyond)
    · have names : compartmentOf b = some .a := by rw [isA]; rfl
      exact order_answered takes (State.scopeOptions_received s names scope stale)
    · have names : compartmentOf b = some .b := by rw [isB]; rfl
      exact order_answered takes (State.scopeOptions_received s names scope stale)
  · intro fits
    have same : fits = timerFits p := by simp [fits, timerFits, timerRanges]
    rw [same]
    exact ⟨fun n fails before => order_answered takes (State.timerWrite_fault _ (timerFault_first fails before)),
      fun fit => order_answered takes (State.timerWrite_received s (timerFault_none fit))⟩

end Sys2Proof.Machine
end

section
/-! ## O57: STATUS -/

namespace Sys2Proof.Machine

/-! ### The bytes of the answer -/

theorem leadingPriority_zero : leadingPriority 0 = 0 := by decide

/-- The leading category is the first in the set (R114). -/
theorem leadingPriority_first {x : BitVec 13} {i : Nat} (category : i < 13) (held : x.getLsbD i = true)
    (first : ∀ j, j < i → x.getLsbD j = false) : leadingPriority x = i + 1 := by
  have found : (List.range 13).find? (fun i => x.getLsbD i) = some i :=
    List.find?_range_eq_some.2 ⟨held, List.mem_range.2 category, fun j earlier => by rw [first j earlier]; rfl⟩
  unfold leadingPriority
  rw [show [0, 1, 2, 3, 4, 5, 6, 7, 8, 9, 10, 11, 12] = List.range 13 from rfl, found]

theorem linksByte_bits (x : LinkErrors) :
    (byte x.code).getLsbD 0 = x.check ∧ (byte x.code).getLsbD 1 = x.length ∧ (byte x.code).getLsbD 2 = x.target ∧
      (byte x.code).getLsbD 3 = x.order ∧ (byte x.code).toNat < 16 := by
  obtain ⟨small, check, length, target, order⟩ := fourFlags_bits x.check x.length x.target x.order
  rw [fourFlags] at small check length target order
  exact ⟨check, length, target, order, small⟩

/-- One flag for each hoist as the low bits of a byte, and those bits read back. -/
theorem hoistFlags_bits : ∀ flag : HoistId → Bool,
    let x := byte (allHoists.map fun h => if flag h = true then 2 ^ h.val else 0).sum
    (∀ h : HoistId, x.getLsbD h.val = flag h) ∧ x.toNat < 64 := by decide

/-! ### What is cleared -/

/-- The set that STATUS leaves latched: RECORDS while its cause persists (R117). -/
def State.leftLatched (s : State) : BitVec 13 := if s.records ≠ [] ∨ s.overflow = true then 4096 else 0

theorem State.relatchRecords_due {s : State} (cause : s.records ≠ [] ∨ s.overflow = true) :
    s.relatchRecords = s.latch .records :=
  if_pos cause

theorem State.relatchRecords_idle {s : State} (rest : ¬(s.records ≠ [] ∨ s.overflow = true)) : s.relatchRecords = s :=
  if_neg rest

/-- A category latched into an emptied set is the whole set. -/
theorem State.latch_emptied (s : State) (c : Category) : (s.setLatched 0).latch c = s.setLatched c.set := by
  have whole : (0 : BitVec 13) ||| c.set = c.set := BitVec.zero_or
  unfold State.latch
  rw [State.setLatched_latched, whole]
  rfl

theorem State.clearStatus_eq (s : State) :
    s.clearStatus = State.setLatched { s with links := .clear } s.leftLatched := by
  unfold State.clearStatus State.leftLatched
  by_cases cause : s.records ≠ [] ∨ s.overflow = true
  · rw [if_pos cause, State.relatchRecords_due, State.latch_emptied]
    · rfl
    · exact cause
  · rw [if_neg cause, State.relatchRecords_idle]
    exact cause

theorem State.status_received (s : State) :
    (s.received .uplink).status =
      ((State.setLatched { s with links := .clear } s.leftLatched).received .uplink,
        ⟨.accepted, 0, s.statusData⟩) := by
  unfold State.status
  rw [State.clearStatus_eq]
  rfl

/-- Settles O57: the answer's bytes one by one, and what stands once they are given (`State.clearStatus_eq`). -/
theorem statusReportsAndClears : Obligations.StatusReportsAndClears := by
  intro o s takes
  obtain ⟨lines, few⟩ := hoistFlags_bits fun h => (s.hoist h).tripLineOpen
  refine ⟨byte (leadingPriority s.latched), byte s.links.code, byte s.openLines,
    order_answered takes s.status_received, fun clear => ?_, fun i category held first => ?_,
    linksByte_bits s.links, lines, few⟩
  · rw [clear, leadingPriority_zero]
    rfl
  · rw [leadingPriority_first category held first]
    exact Nat.mod_eq_of_lt (by omega)

end Sys2Proof.Machine
end

section
/-! ## What leaves the handovers alone -/

namespace Sys2Proof.Machine

/-! ### The relation -/

/-- The states of a hoist with an open handover (R123, R137). -/
def HoistState.handsOver (st : HoistState) : Prop := st = .docked ∨ st = .tripped

/-- A change of a hoist's state with which no handover opens or closes: none docks, and one that is DOCKED or TRIPPED stays
the one or the other (R123, R131, R137). -/
def HoistState.Allows (a b : HoistState) : Prop := (b = .docked → a = .docked) ∧ (a.handsOver → b.handsOver)

theorem HoistState.Allows.same (a : HoistState) : a.Allows a := ⟨id, id⟩

theorem HoistState.Allows.of_eq {a b : HoistState} (e : b = a) : a.Allows b := e ▸ .same a

theorem HoistState.Allows.trans {a b c : HoistState} (x : a.Allows b) (y : b.Allows c) : a.Allows c :=
  ⟨x.1 ∘ y.1, y.2 ∘ x.2⟩

theorem HoistState.Allows.tripped (a : HoistState) : a.Allows .tripped := ⟨nofun, fun _ => .inr rfl⟩

theorem HoistState.Allows.of_idle {a b : HoistState} (idle : ¬a.handsOver) (ne : b ≠ .docked) : a.Allows b :=
  ⟨fun e => absurd e ne, fun x => absurd x idle⟩

/-- No handover opens or closes with the hoist's change, and during a handover its configuration is as it was. -/
structure Hoist.Spared (r r' : Hoist) : Prop where
  config : r.state.handsOver → r'.config = r.config
  state : r.state.Allows r'.state

theorem Hoist.Spared.same (r : Hoist) : r.Spared r := ⟨fun _ => rfl, .same _⟩

theorem Hoist.Spared.trans {r r' r'' : Hoist} (a : r.Spared r') (b : r'.Spared r'') : r.Spared r'' :=
  ⟨fun x => (b.config (a.state.2 x)).trans (a.config x), a.state.trans b.state⟩

theorem Hoist.OnlyClaims.spared {r r' : Hoist} (a : r.OnlyClaims r') : r.Spared r' := ⟨fun _ => a.config, .of_eq a.state⟩

theorem Hoist.spared_modMove (r : Hoist) (f : Move → Move) : r.Spared (r.modMove f) := by
  rw [Hoist.modMove_eq]
  exact ⟨fun _ => rfl, .same _⟩

/-- Which compartments a landing serves. -/
def LandingRec.sides (rec : LandingRec) : Bool × Bool := (rec.servesA, rec.servesB)

/-- The timer of a handover runs exactly in the phases it times (R128, R133 to R135). -/
def Handover.Timed (v : Handover) : Prop :=
  v.timer.isSome = true ↔ v.phase = .latching ∨ v.phase = .transferring ∨ v.phase = .unlatching

/-- From its grant a handover has a slot and a mass (R125, R127). -/
def Handover.Chosen (v : Handover) : Prop := v.phase ≠ .waiting → v.slot.isSome = true ∧ v.mass.isSome = true

/-- A handover that goes on: it is of the same hoist, waits if it waited, and is as well formed as it was. -/
structure Handover.Kept (v v' : Handover) : Prop where
  hoist : v'.hoist = v.hoist
  waiting : v'.phase = .waiting ↔ v.phase = .waiting
  timed : v.Timed → v'.Timed
  chosen : v.Chosen → v'.Chosen

theorem Handover.Kept.same (v : Handover) : v.Kept v := ⟨rfl, .rfl, id, id⟩

theorem Handover.Kept.trans {u v w : Handover} (a : u.Kept v) (b : v.Kept w) : u.Kept w :=
  ⟨b.hoist.trans a.hoist, b.waiting.trans a.waiting, b.timed ∘ a.timed, b.chosen ∘ a.chosen⟩

/-- Two queues of the same handovers in the same order. -/
abbrev SameQueue (q q' : List Handover) : Prop := List.Forall₂ Handover.Kept q q'

theorem SameQueue.same (q : List Handover) : SameQueue q q := List.forall₂_same.2 fun v _ => .same v

theorem SameQueue.trans {p q r : List Handover} (a : SameQueue p q) (b : SameQueue q r) : SameQueue p r := by
  induction a generalizing r with
  | nil => exact b
  | cons first _ ih =>
    cases b with
    | cons second rest => exact .cons (first.trans second) (ih rest)

theorem SameQueue.hoists {q q' : List Handover} (a : SameQueue q q') : q'.map Handover.hoist = q.map Handover.hoist := by
  induction a with
  | nil => rfl
  | cons first _ ih => rw [List.map_cons, List.map_cons, first.hoist, ih]

theorem SameQueue.mem {q q' : List Handover} (a : SameQueue q q') {v' : Handover} (m : v' ∈ q') : ∃ v ∈ q, v.Kept v' := by
  induction a with
  | nil => cases m
  | cons first _ ih =>
    rcases List.mem_cons.1 m with rfl | m
    · exact ⟨_, List.mem_cons_self, first⟩
    · obtain ⟨v, inside, kept⟩ := ih m
      exact ⟨v, List.mem_cons_of_mem _ inside, kept⟩

theorem SameQueue.map {q : List Handover} {f : Handover → Handover} (kept : ∀ v ∈ q, v.Kept (f v)) :
    SameQueue q (q.map f) := List.forall₂_map_right_iff.2 (List.forall₂_same.2 kept)

/-- Nothing of a landing differs but its shuttle's state, its slots, its pointer, the settings that name no compartment, and
how far its handovers have got. -/
structure Landing.Manned (x x' : Landing) : Prop where
  queue : SameQueue x.queue x'.queue
  holder : x'.holder = x.holder
  survey : x'.survey = x.survey
  surveyTimer : x'.surveyTimer = x.surveyTimer
  sides : x'.record.map LandingRec.sides = x.record.map LandingRec.sides

/-- Nor does the shuttle's state. -/
structure Landing.Spared (x x' : Landing) : Prop extends x.Manned x' where
  shuttle : x'.shuttle = x.shuttle

theorem Landing.Spared.same (x : Landing) : x.Spared x := ⟨⟨.same _, rfl, rfl, rfl, rfl⟩, rfl⟩

theorem Landing.Spared.trans {x y z : Landing} (a : x.Spared y) (b : y.Spared z) : x.Spared z :=
  ⟨⟨a.queue.trans b.queue, b.holder.trans a.holder, b.survey.trans a.survey, b.surveyTimer.trans a.surveyTimer,
    b.sides.trans a.sides⟩, b.shuttle.trans a.shuttle⟩

/-- A change that opens and closes no handover and no survey. -/
structure State.Spares (s t : State) : Prop where
  hoist : ∀ h, (s.hoist h).Spared (t.hoist h)
  landing : ∀ l, (s.landing l).Spared (t.landing l)
  comp : ∀ c, (s.comp c).state = .supervised → (t.comp c).state = .supervised

namespace State.Spares

theorem same (s : State) : s.Spares s := ⟨fun _ => .same _, fun _ => .same _, fun _ => id⟩

theorem andThen {s t u : State} (a : s.Spares t) (b : t.Spares u) : s.Spares u :=
  ⟨fun h => (a.hoist h).trans (b.hoist h), fun l => (a.landing l).trans (b.landing l), fun c => b.comp c ∘ a.comp c⟩

theorem fold {α : Type} (f : State → α → State) (each : ∀ s x, State.Spares s (f s x)) (xs : List α) (s : State) :
    s.Spares (xs.foldl f s) := by
  induction xs generalizing s with
  | nil => exact same s
  | cons x xs ih => exact (each s x).andThen (ih _)

/-- A change of neither a hoist, nor a landing, nor a compartment. -/
theorem rest {s t : State} (hoists : t.hoists = s.hoists) (landings : t.landings = s.landings) (a : t.compA = s.compA)
    (b : t.compB = s.compB) : s.Spares t := by
  refine ⟨fun h => ?_, fun l => ?_, fun c => ?_⟩
  · rw [State.hoist_of_hoists hoists]
    exact .same _
  · unfold State.landing
    rw [landings]
    exact .same _
  · cases c
    · exact fun x => (congrArg CompartmentRec.state a).trans x
    · exact fun x => (congrArg CompartmentRec.state b).trans x

theorem mod (s : State) (h : HoistId) (f : Hoist → Hoist) (same : (s.hoist h).Spared (f (s.hoist h))) :
    s.Spares (s.modHoist h f) := by
  refine ⟨fun y => ?_, fun _ => .same _, fun c => by rw [State.comp_modHoist]; exact id⟩
  rw [State.modHoist_hoist]
  split
  · exact ‹y = h› ▸ same
  · exact .same _

/-- A change of hoists by claims, states and trips, as far as the states go. -/
theorem acts {s t : State} (a : s.Acts t) (state : ∀ h, (s.hoist h).state.Allows (t.hoist h).state) : s.Spares t := by
  refine ⟨fun h => ⟨fun _ => (a.track h).config, state h⟩, fun l => ?_, fun c => by rw [a.comp]; exact id⟩
  have e := a.only
  unfold State.OnlyHoists at e
  rw [e]
  exact .same _

theorem enter {s : State} {h : HoistId} {st : HoistState} (may : (s.hoist h).state.Allows st) :
    s.Spares (s.enter h st) := by
  refine acts (.enter s h st) fun y => ?_
  rw [State.hoist_enter]
  split
  · exact ‹y = h› ▸ may
  · exact .same _

theorem modRecord (s : State) (l : LandingId) {f : LandingRec → LandingRec} (sides : ∀ rec, (f rec).sides = rec.sides) :
    s.Spares (s.modRecord l f) := by
  refine ⟨fun _ => .same _, fun y => ?_, fun c => by cases c <;> exact id⟩
  unfold State.modRecord
  rw [State.landing_modLanding]
  split
  · refine ‹y = l› ▸ ⟨⟨.same _, rfl, rfl, rfl, ?_⟩, rfl⟩
    cases (s.landing y).record with
    | none => rfl
    | some rec => exact congrArg some (sides rec)
  · exact .same _

theorem modComp (s : State) (c : Compartment) {f : CompartmentRec → CompartmentRec}
    (state : (s.comp c).state = .supervised → (f (s.comp c)).state = .supervised) : s.Spares (s.modComp c f) := by
  refine ⟨fun h => by rw [State.hoist_modComp]; exact .same _, fun l => ?_, fun d => ?_⟩
  · unfold State.modComp
    rw [State.landing_setComp]
    exact .same _
  · unfold State.modComp
    rw [State.comp_setComp]
    split
    · exact ‹d = c› ▸ state
    · exact id

theorem latch (s : State) (c : Category) : s.Spares (s.latch c) := rest rfl rfl rfl rfl

theorem give (s : State) (p : Port) (f : Frame) : s.Spares (s.give p f) := rest rfl rfl rfl rfl

theorem received (s : State) (p : Port) : s.Spares (s.received p) := by cases p <;> exact rest rfl rfl rfl rfl

theorem recompute (s : State) (h : HoistId) : s.Spares (s.recompute h) := mod s h _ ⟨fun _ => rfl, .same _⟩

/-! ### Claims, the sequencer and trips -/

theorem trimTo (s : State) (h : HoistId) (keep : Option Run) : s.Spares (s.trimTo h keep) :=
  acts (s.trimTo_acts h keep) fun y => .of_eq (s.trimTo_only h keep y).state

theorem setRun (s : State) (h : HoistId) (run : Option Run) (left : List Nat) : s.Spares (s.setRun h run left) :=
  acts (s.setRun_acts h run left) fun y => .of_eq (s.setRun_only h run left y).state

theorem walk (s : State) (h : HoistId) : s.Spares (s.walk h) :=
  acts (s.walk_acts h) fun y => .of_eq (s.walk_walked h y).only.state

theorem releaseBehind (s : State) (h : HoistId) : s.Spares (s.releaseBehind h) := by
  unfold State.releaseBehind
  dsimp only
  split
  · split
    · split
      · exact same s
      · exact setRun s _ _ _
    · exact same s
  · exact same s

theorem clearExtent (s : State) (h : HoistId) : s.Spares (s.clearExtent h) := mod s h _ ⟨fun _ => rfl, .same _⟩

theorem logEnd (s : State) (h : HoistId) (o : Option MoveOutcome) : s.Spares (s.logEnd h o) :=
  acts (s.logEnd_acts h o) fun y => .of_eq (by
    unfold State.logEnd
    split
    · rw [State.hoist_logMove]
    · rfl)

/-- The end of a move, or of a parking: the hoist is trimmed and enters its next state. -/
theorem trimmed {s t : State} {h : HoistId} {st : HoistState} (first : s.Spares t)
    (state : (t.hoist h).state = (s.hoist h).state) (keep : Option Run) (may : (s.hoist h).state.Allows st) :
    s.Spares ((t.trimTo h keep).enter h st) :=
  (first.andThen (trimTo t h keep)).andThen (enter (by rwa [(t.trimTo_only h keep h).state, state]))

theorem endMove {s : State} {h : HoistId} {st : HoistState} (may : (s.hoist h).state.Allows st) :
    s.Spares (s.endMove h st) := by
  refine trimmed (.andThen (mod s h _ (Hoist.spared_modMove _ _)) (clearExtent _ h)) ?_ _ may
  rw [State.hoist_clearExtent_self, State.modHoist_hoist_self, Hoist.modMove_eq]

theorem resolveState (s : State) (h : HoistId) : s.Spares (s.resolveState h) := by
  have after : ∀ r : Hoist, r.afterArrival ≠ .docked := by
    intro r
    unfold Hoist.afterArrival
    split
    · split <;> exact nofun
    · exact nofun
  unfold State.resolveState
  dsimp only
  split
  · rename_i e
    split
    · exact enter (.of_idle (by rw [e]; rintro (x | x) <;> cases x) nofun)
    · exact same s
  · rename_i e
    split
    · exact endMove (.of_idle (by rw [e]; rintro (x | x) <;> cases x) (after _))
    · exact same s
  · rename_i e
    split
    · exact endMove (.of_idle (by rw [e]; rintro (x | x) <;> cases x) nofun)
    · exact same s
  · rename_i e
    split
    · exact trimmed (same s) rfl _ (.of_idle (by rw [e]; rintro (x | x) <;> cases x) nofun)
    · exact same s
  all_goals exact same s

theorem stopHoist (s : State) (h : HoistId) (reason : StopReason) : s.Spares (s.stopHoist h reason) := by
  refine acts (s.stopHoist_acts h reason) fun y => ?_
  by_cases moving : (s.hoist h).state = .moving
  · rw [State.stopHoist_moving moving, State.setHoist_hoist]
    split
    · rename_i e
      subst e
      exact .of_idle (by rw [moving]; rintro (x | x) <;> cases x) nofun
    · exact .same _
  · rw [State.stopHoist_still moving]
    exact .same _

theorem stopAll (s : State) (hs : List HoistId) : s.Spares (s.stopAll hs) :=
  fold _ (fun s h => stopHoist s h .stopped) hs s

theorem tripHoist (s : State) (h : HoistId) (cause : TripCause) : s.Spares (s.tripHoist h cause) := by
  refine acts (s.tripHoist_acts h cause) fun y => ?_
  by_cases e : y = h
  · subst e
    by_cases can : s.canTrip y = true
    · rw [(State.hoist_tripHoist_self can cause).1]
      exact .tripped _
    · rw [State.canTrip_iff, not_and, not_not] at can
      cases held : (s.hoist y).state.supervised with
      | true => rw [State.tripHoist_tripped (can held)]; exact .same _
      | false => rw [State.tripHoist_out held]; exact .same _
  · rw [State.hoist_tripHoist_other s e]
    exact .same _

theorem applyTripScope (s : State) (h : HoistId) : s.Spares (s.applyTripScope h) := by
  unfold State.applyTripScope
  split
  · split
    · exact stopAll s _
    · exact same s
  · exact same s

theorem trip (s : State) (h : HoistId) (cause : TripCause) : s.Spares (s.trip h cause) := by
  unfold State.trip
  dsimp only
  split
  · exact (tripHoist s h cause).andThen (applyTripScope _ h)
  · exact tripHoist s h cause

theorem actOnTests (s : State) (h : HoistId) (elapsed : Nat) : s.Spares (s.actOnTests h elapsed) := by
  have lowered : s.Spares (s.lowerAllowance h elapsed) := mod s h _ (by split <;> exact ⟨fun _ => rfl, .same _⟩)
  have taken : s.Spares (s.testsTaken h elapsed) := by
    unfold State.testsTaken
    refine .andThen ?_ (fold _ (fun s x => tripHoist s x .separation) _ _)
    cases (s.reportCauses h elapsed).head? with
    | none => exact lowered
    | some c => exact lowered.andThen (tripHoist _ h c)
  rw [State.actOnTests_eq]
  split
  · exact taken.andThen (applyTripScope _ h)
  · exact taken

/-! ### Brake proof -/

theorem degrade (s : State) (h : HoistId) : s.Spares (s.degrade h) :=
  (mod s h _ (Hoist.spared_modMove _ _)).andThen (latch _ _)

theorem evaluateProof (s : State) (h : HoistId) : s.Spares (s.evaluateProof h) := by
  have evaluated : s.Spares ((s.modHoist h fun r => { r with proofStatus := s.evaluatedStatus (s.hoist h) }).recompute h) :=
    (mod s h _ ⟨fun _ => rfl, .same _⟩).andThen (recompute _ h)
  unfold State.evaluateProof
  dsimp only
  split
  · exact same s
  · split
    · exact evaluated.andThen (degrade _ h)
    · exact evaluated

theorem evaluateAll (s : State) : s.Spares s.evaluateAll := fold _ (fun s h => evaluateProof s h) _ s

theorem takeProofResult (s : State) (h : HoistId) : s.Spares (s.takeProofResult h) := by
  unfold State.takeProofResult
  dsimp only
  split
  · rename_i proving
    split
    · split
      · exact same s
      · exact (enter (st := .parked) (.of_idle (by rw [proving]; rintro (x | x) <;> cases x) nofun)).andThen (mod _ h _ ⟨fun _ => rfl, .same _⟩)
      · exact trip s h _
    · exact same s
  · exact same s

/-! ### The registry -/

theorem setCarried (s : State) (h : HoistId) (c : Carried) : s.Spares (s.setCarried h c) := mod s h _ ⟨fun _ => rfl, .same _⟩

theorem setWeighPending (s : State) (h : HoistId) (b : Bool) : s.Spares (s.setWeighPending h b) :=
  mod s h _ ⟨fun _ => rfl, .same _⟩

theorem setSlot (s : State) (l : LandingId) (i : Nat) (x : SlotState) : s.Spares (s.setSlot l i x) :=
  modRecord s l fun _ => rfl

theorem setMass (s : State) (m : MassId) (x : Mass) : s.Spares (s.setMass m x) := rest rfl rfl rfl rfl

theorem setStatus (s : State) (m : MassId) (x : MassStatus) : s.Spares (s.setStatus m x) := setMass s m _

theorem doubtPlace (s : State) (t : MassId) : s.Spares (s.doubtPlace t) := by
  unfold State.doubtPlace
  split
  · exact setSlot s _ _ _
  · split
    · exact setCarried s _ _
    · exact same s
  · exact same s

theorem vacatePlace (s : State) (t : MassId) : s.Spares (s.vacatePlace t) := by
  unfold State.vacatePlace
  split
  · exact setSlot s _ _ _
  · split
    · exact setCarried s _ _
    · exact same s
  · exact same s

theorem weigh (s : State) (h : HoistId) : s.Spares (s.weigh h) := by
  unfold State.weigh
  dsimp only
  refine .andThen ?_ (setWeighPending _ _ _)
  split
  · split
    · exact same s
    · exact ((setCarried s _ _).andThen (setStatus _ _ _)).andThen (latch _ _)
    · exact (setCarried s _ _).andThen (latch _ _)
  · split
    · exact (setCarried s _ _).andThen (latch _ _)
    · split
      · exact (setMass s _ _).andThen (latch _ _)
      · exact setMass s _ _
    · exact latch s _

theorem weighIfDue (s : State) (h : HoistId) : s.Spares (s.weighIfDue h) := by
  unfold State.weighIfDue
  split
  · exact weigh s h
  · exact same s

theorem loseMass (s : State) (p : Place) (e k : Option MassId) : s.Spares (s.loseMass p e k) := by
  unfold State.loseMass
  split
  · split
    · exact setStatus s _ _
    · exact same s
  · exact same s

theorem applyCode (s : State) (l : LandingId) (i : Nat) (e : Option MassId) (code : Byte) :
    s.Spares (s.applyCode l i e code) := by
  have placed : ∀ (t m : MassId) (x : SlotState) (y : MassStatus),
      s.Spares (((s.doubtPlace t).setSlot l i x).setStatus m y) := fun t _ _ _ =>
    ((doubtPlace s t).andThen (setSlot _ _ _ _)).andThen (setStatus _ _ _)
  unfold State.applyCode
  dsimp only
  split
  · exact setSlot s _ _ _
  · split
    · split
      · exact (setSlot s _ _ _).andThen (setStatus _ _ _)
      · exact setSlot s _ _ _
    · split
      · split
        · split <;> exact placed _ _ _ _
        · exact placed _ _ _ _
      · exact setSlot s _ _ _

theorem reconcileSlot (s : State) (l : LandingId) (i : Nat) (code : Byte) : s.Spares (s.reconcileSlot l i code) := by
  have coded : ∀ e p k, s.Spares ((s.applyCode l i e code).loseMass p e k) := fun e p k =>
    (applyCode s l i e code).andThen (loseMass _ p e k)
  unfold State.reconcileSlot
  split
  · exact same s
  · dsimp only
    split
    · exact coded _ _ _
    · exact (coded _ _ _).andThen (latch _ _)

theorem reconcile (s : State) (l : LandingId) (codes : List Byte) : s.Spares (s.reconcile l codes) :=
  fold (fun s (x : Byte × Nat) => s.reconcileSlot l x.2 x.1) (fun s x => reconcileSlot s l x.2 x.1) _ s

/-! ### REPORT, DEMAND and expiries -/

theorem trackReport (s : State) (h : HoistId) (w : ReportWire) : s.Spares (s.trackReport h w) := by
  unfold State.trackReport
  split
  · exact mod s h _ ⟨fun _ => rfl, .same _⟩
  · exact same s

theorem reportPath (s : State) (h : HoistId) (w : ReportWire) : s.Spares (s.reportPath h w) := by
  have tested : s.Spares ((((s.copyReference h).trackReport h w).releaseBehind h).actOnTests h (s.sinceReport h)) :=
    (((mod s h _ ⟨fun _ => rfl, .same _⟩).andThen (trackReport _ h w)).andThen (releaseBehind _ h)).andThen (actOnTests _ h _)
  exact (((((tested.andThen (resolveState _ h)).andThen (takeProofResult _ h)).andThen (evaluateProof _ h)).andThen
    (weighIfDue _ h)).andThen (logEnd _ h _)).andThen (recompute _ h)

theorem restartDemandTimer (s : State) (h : HoistId) : s.Spares (s.restartDemandTimer h) := mod s h _ ⟨fun _ => rfl, .same _⟩

theorem superviseDemand (s : State) (h : HoistId) (v : Int) : s.Spares (s.superviseDemand h v) := by
  have kept : s.Spares (s.modHoist h fun r =>
      { r with lastVelocity := (s.hoist h).forwardedVelocity v, lastReason := (s.hoist h).clampReason v }) :=
    mod s h _ ⟨fun _ => rfl, .same _⟩
  have latched : ∀ t : State, s.Spares t →
      s.Spares (if (s.hoist h).clampReason v = .mismatch then t.latch .mismatch else t) := by
    intro t k
    split
    · exact k.andThen (latch t _)
    · exact k
  unfold State.superviseDemand
  dsimp only
  refine .andThen ?_ (give _ _ _)
  split
  · exact ((latched _ kept).andThen (mod _ h _ (Hoist.spared_modMove _ _))).andThen (latch _ _)
  · exact latched _ kept

theorem expiry (s : State) (timer : Option Nat) (f : State → State) (each : s.Spares (f s)) :
    s.Spares (expiry s timer f) := by
  unfold Machine.expiry
  split
  · exact each
  · exact same s

theorem takeSecond (s : State) (h : HoistId) : s.Spares (s.takeSecond h) := (mod s h _ ⟨fun _ => rfl, .same _⟩).andThen (latch _ _)

theorem reportLoss (s : State) (h : HoistId) : s.Spares (s.reportLoss h) := by
  unfold State.reportLoss
  split
  · exact trip s h _
  · exact trip s h _
  · exact trip s h _
  · exact trip s h _
  · exact trip s h _
  · exact trip s h _
  · exact trip s h _
  · exact latch s _
  · exact latch s _
  · exact same s
  · exact same s

theorem lapse (s : State) (h : HoistId) : s.Spares (s.lapse h) := by
  unfold State.lapse
  dsimp only
  refine .andThen (mod s h (fun r => { r with reportTimer := none }) ⟨fun _ => rfl, .same _⟩) ?_
  split
  · exact (mod _ h _ ⟨fun _ => rfl, .same _⟩).andThen (reportLoss _ h)
  · exact same _
  · exact same _

theorem actOnStale (s : State) (h : HoistId) : s.Spares (s.actOnStale h) := by
  unfold State.actOnStale
  split
  · split
    · exact stopHoist s h _
    · exact trip s h _
  · exact same s

end State.Spares

end Sys2Proof.Machine
end

section
/-! ## Orders that leave the handovers alone -/

namespace Sys2Proof.Machine

theorem HoistState.not_handsOver {st : HoistState} (docked : st ≠ .docked) (tripped : st ≠ .tripped) : ¬st.handsOver := by
  rintro (e | e)
  · exact docked e
  · exact tripped e

theorem HoistState.not_handsOver_of_out {st : HoistState} (out : st.supervised = false) : ¬st.handsOver :=
  not_handsOver (fun e => by rw [e] at out; cases out) (fun e => by rw [e] at out; cases out)

/-- A hoist with no handover, whose change docks it nowhere. -/
theorem Hoist.Spared.of_idle {r r' : Hoist} (idle : ¬r.state.handsOver) (ne : r'.state ≠ .docked) : r.Spared r' :=
  ⟨fun x => absurd x idle, .of_idle idle ne⟩

namespace State.Spares

/-- A check that refuses an order, and what comes of the order where it passes. -/
theorem check {s : State} {p : Prop} [Decidable p] {x y : State × Reply} (fails : s.Spares x.1)
    (passes : ¬p → s.Spares y.1) : s.Spares (if p then x else y).1 := by
  split
  · exact fails
  · exact passes ‹_›

theorem accepted {s t : State} (a : s.Spares t) : s.Spares t.accept.1 := a

/-- A hoist in one of the states without a handover enters another of them. -/
theorem enterFrom {s : State} {h : HoistId} {a b : HoistState} (e : (s.hoist h).state = a) (docked : a ≠ .docked)
    (tripped : a ≠ .tripped) (ne : b ≠ .docked) : s.Spares (s.enter h b) :=
  enter (.of_idle (e ▸ HoistState.not_handsOver docked tripped) ne)

/-! ### MOVE -/

theorem claim (s : State) (h : HoistId) (target : Nat) : s.Spares (s.claim h target) :=
  (mod s h _ ⟨fun _ => rfl, .same _⟩).andThen (walk _ h)

theorem degradeIfDue (s : State) (h : HoistId) : s.Spares (s.degradeIfDue h) := by
  unfold State.degradeIfDue
  split
  · exact degrade s h
  · exact same s

theorem startMove {s : State} {h : HoistId} (ready : (s.hoist h).state = .ready) (target : Nat) (p : Bool) :
    s.Spares (s.startMove h target p) := by
  have opened : s.Spares (s.modHoist h fun r => r.openMove s.now target p) := mod s h _ ⟨fun _ => rfl, .same _⟩
  have entered : s.Spares ((s.modHoist h fun r => r.openMove s.now target p).enter h .moving) := by
    refine opened.andThen (enterFrom (a := .ready) ?_ nofun nofun nofun)
    rw [State.modHoist_hoist_self]
    exact ready
  exact ((entered.andThen (claim _ h target)).andThen (degradeIfDue _ h)).andThen (recompute _ h)

theorem retarget (s : State) (h : HoistId) (target : Nat) (p : Bool) : s.Spares (s.retarget h target p) := by
  unfold State.retarget
  dsimp only
  exact (((((clearExtent s h).andThen (setRun _ h _ _)).andThen (mod _ h _ (Hoist.spared_modMove _ _))).andThen
    (claim _ h target)).andThen (degradeIfDue _ h)).andThen (recompute _ h)

theorem move (s : State) (b : Byte) (target : Nat) (p : Bool) : s.Spares (s.move b target p).1 := by
  unfold State.move
  split
  · exact same s
  · refine check (same s) fun ready => check (same s) fun _ => check (same s) fun _ => check (same s) fun _ =>
      check (same s) fun _ => ?_
    split
    · exact same s
    · split
      · exact retarget s _ _ _
      · rename_i still
        exact startMove (by_contra fun n => ready ⟨n, still⟩) _ _

/-! ### The other orders of a hoist -/

theorem engage (s : State) (b : Byte) : s.Spares (s.engage b).1 := by
  unfold State.engage
  split
  · exact same s
  · exact check (same s) fun parked => check (same s) fun _ => check (same s) fun _ =>
      enterFrom (not_not.1 parked) nofun nofun nofun

theorem park (s : State) (b : Byte) : s.Spares (s.park b).1 := by
  unfold State.park
  split
  · exact same s
  · split
    · rename_i free
      rcases free with e | e
      · exact enterFrom e nofun nofun nofun
      · exact enterFrom e nofun nofun nofun
    · exact same s

theorem abort (s : State) (b : Byte) : s.Spares (s.abort b).1 := by
  unfold State.abort
  split
  · exact same s
  · exact check (stopHoist s _ _) fun _ => check (same s) fun _ => same s

theorem prove (s : State) (b : Byte) : s.Spares (s.prove b).1 := by
  unfold State.prove
  split
  · exact same s
  · exact check (same s) fun parked => check (same s) fun _ =>
      .andThen (t := s.enter _ .proving) (enterFrom (not_not.1 parked) nofun nofun nofun) (give _ _ _)

theorem writeCeiling (s : State) (h : HoistId) (v : Nat) : s.Spares (s.writeCeiling h v) :=
  (mod s h _ ⟨fun _ => rfl, .same _⟩).andThen (recompute _ h)

theorem ceiling (s : State) (b : Byte) (v : Nat) : s.Spares (s.ceiling b v).1 := by
  unfold State.ceiling
  split
  · exact same s
  · exact check (writeCeiling s _ v) fun _ => same s

theorem groupCeiling (s : State) (b : Byte) (v : Nat) : s.Spares (s.groupCeiling b v).1 := by
  unfold State.groupCeiling
  split
  · exact same s
  · exact fold _ (fun s h => writeCeiling s h v) _ s

theorem groupWrite (s : State) (b set : Byte) : s.Spares (s.groupWrite b set).1 := by
  unfold State.groupWrite
  split
  · exact same s
  · exact check (rest rfl rfl rfl rfl) fun _ => same s

theorem groupStop (s : State) (b : Byte) : s.Spares (s.groupStop b).1 := by
  unfold State.groupStop
  split
  · exact same s
  · exact stopAll s _

/-- A hoist that is configured, and not supervised before or after, has no handover (R22, R23). -/
theorem hoistConfig (s : State) (follows : s.Following) (b : Byte) (p : HoistParams) :
    s.Spares (s.hoistConfig b p).1 := by
  unfold State.hoistConfig
  split
  · exact same s
  · rename_i h _
    split
    · exact same s
    · rename_i k _
      refine check (same s) fun out => check (same s) fun _ => check (same s) fun _ => ?_
      rw [not_or, Bool.not_eq_true, Bool.not_eq_true] at out
      have former : (s.hoist h).state.supervised = false := (follows h).trans out.1
      refine .andThen (mod s h _ (.of_idle (HoistState.not_handsOver_of_out former) ?_)) (enter (.of_idle ?_ ?_))
      · intro e
        have : (s.hoist h).state = .docked := by split at e <;> exact e
        rw [this] at former
        cases former
      · rw [State.modHoist_hoist_self]
        split <;> exact HoistState.not_handsOver_of_out former
      · cases (s.modHoist h _).comp k.compartment |>.state <;> exact nofun

/-! ### Orders of the shaft map -/

theorem modTables (s : State) (c : Compartment) (f : CompartmentRec → CompartmentRec)
    (state : (f (s.comp c)).state = (s.comp c).state) : s.Spares (s.modComp c f) := modComp s c fun x => state.trans x

theorem emptyIfShort (s : State) (c : Compartment) : s.Spares (s.emptyIfShort c) := by
  unfold State.emptyIfShort
  split
  · exact same s
  · exact modTables s c _ rfl

theorem shaftWrite (s : State) (a b c d : Nat) : s.Spares (s.shaftWrite a b c d).1 := by
  unfold State.shaftWrite
  exact check (same s) fun _ => check (same s) fun _ => check (same s) fun _ =>
    .andThen (t := { s with shaft := ⟨a, b, c, d⟩ }) (rest rfl rfl rfl rfl)
      ((emptyIfShort _ .a).andThen (emptyIfShort _ .b))

theorem zoneWriteEntry (s : State) (b : Byte) (i u v : Nat) (kind landing : Byte) :
    s.Spares (s.zoneWriteEntry b i u v kind landing).1 := by
  unfold State.zoneWriteEntry
  split
  · exact same s
  · split
    · exact same s
    · exact check (accepted (modTables s _ _ rfl)) fun _ => same s

theorem zoneWriteCount (s : State) (b : Byte) (n : Nat) : s.Spares (s.zoneWriteCount b n).1 := by
  unfold State.zoneWriteCount
  split
  · exact same s
  · exact check (accepted (modTables s _ _ rfl)) fun _ => same s

theorem setRunsToSpans (s : State) (c : Compartment) : s.Spares (s.setRunsToSpans c) :=
  fold _ (fun s h => (mod s h _ ⟨fun _ => rfl, .same _⟩).andThen (recompute _ h)) _ s

theorem zoneCommit (s : State) (b : Byte) : s.Spares (s.zoneCommit b).1 := by
  have committed : ∀ c, s.Spares (s.commitShadow c) := fun c => modTables s c _ rfl
  unfold State.zoneCommit
  split
  · exact same s
  · refine check (same s) fun _ => ?_
    split
    · exact same s
    · split
      · split
        · exact same s
        · exact (committed _).andThen (setRunsToSpans _ _)
      · exact committed _

theorem scopeOptions (s : State) (b scope stale : Byte) : s.Spares (s.scopeOptions b scope stale).1 := by
  unfold State.scopeOptions
  split
  · exact same s
  · split
    · exact accepted (modTables s _ _ rfl)
    · exact same s

/-! ### Orders of the registry -/

theorem blockSlot (s : State) (b : Byte) (i : Nat) : s.Spares (s.blockSlot b i).1 := by
  unfold State.blockSlot
  split
  · exact same s
  · refine check (same s) fun _ => check (same s) fun _ => check (same s) fun _ => ?_
    unfold State.blockSlotAt
    split
    · exact setSlot s _ _ _
    · exact (setSlot s _ _ _).andThen (setStatus _ _ _)
    · exact setSlot s _ _ _
    · exact setSlot s _ _ _
    · exact same s

theorem unblockSlot (s : State) (b : Byte) (i : Nat) : s.Spares (s.unblockSlot b i).1 := by
  unfold State.unblockSlot
  split
  · exact same s
  · refine check (same s) fun _ => check (same s) fun _ => ?_
    split
    · exact check (same s) fun _ => setSlot s _ _ _
    all_goals exact same s

theorem declareMass (s : State) (b : Byte) (nominal : Nat) (kind place slot : Byte) :
    s.Spares (s.declareMass b nominal kind place slot).1 := by
  unfold State.declareMass
  split
  · exact same s
  · split
    · exact same s
    · exact same s
    · rename_i m _ _ p _
      refine check (same s) fun _ => check (same s) fun _ => check (same s) fun _ => ?_
      have freed : s.Spares ((s.vacatePlace m).modMass m fun _ => ⟨.uncertain (some p), some nominal, none⟩) :=
        (vacatePlace s m).andThen (setMass _ _ _)
      refine freed.andThen ?_
      cases p with
      | slot l i => exact setSlot _ l i _
      | hoist h => exact setCarried _ h _

theorem removeMass (s : State) (b : Byte) : s.Spares (s.removeMass b).1 := by
  unfold State.removeMass
  split
  · exact same s
  · exact check (same s) fun _ => check (same s) fun _ => (vacatePlace s _).andThen (setMass _ _ _)

/-! ### ADMIT_SCOPE -/

theorem markSlot (s : State) (l : LandingId) (i : Nat) : s.Spares (s.markSlot l i) := by
  unfold State.markSlot
  dsimp only
  split
  · exact (setSlot s l i _).andThen (setStatus _ _ _)
  · exact setSlot s l i _

theorem markServing (s : State) (c : Compartment) : s.Spares (s.markServing c) :=
  fold _ (fun s l => fold _ (fun s i => markSlot s l i) _ s) _ s

theorem doubtCarried (s : State) (h : HoistId) : s.Spares (s.doubtCarried h) := by
  unfold State.doubtCarried
  split
  · exact same s
  · exact (setWeighPending s h true).andThen (setStatus _ _ _)
  · exact setWeighPending s h true

/-- A hoist with no handover comes under supervision. -/
theorem admitHoist {s : State} {h : HoistId} (idle : ¬(s.hoist h).state.handsOver) : s.Spares (s.admitHoist h) := by
  have placed : s.Spares (s.modHoist h fun r => { r with run := s.spanZones (s.tableOf r) r, extent := [] }) :=
    mod s h _ ⟨fun _ => rfl, .same _⟩
  refine (placed.andThen (enter (st := .parked) (.of_idle ?_ nofun))).andThen (doubtCarried _ h)
  rw [State.modHoist_hoist_self]
  exact idle

theorem admitAll {s : State} {hs : List HoistId} (nodup : hs.Nodup) (idle : ∀ h ∈ hs, ¬(s.hoist h).state.handsOver) :
    s.Spares (hs.foldl (fun s h => s.admitHoist h) s) := by
  induction hs generalizing s with
  | nil => exact same s
  | cons x xs ih =>
    obtain ⟨fresh, nodup⟩ := List.nodup_cons.1 nodup
    refine (admitHoist (idle x List.mem_cons_self)).andThen (ih nodup fun h m => ?_)
    rw [(s.admitHoist_spec x).2.2 h fun e => fresh (e ▸ m)]
    exact idle h (List.mem_cons_of_mem x m)

theorem admitScope (s : State) (follows : s.Following) (b : Byte) : s.Spares (s.admitScope b).1 := by
  unfold State.admitScope
  split
  · exact same s
  · rename_i c _
    refine check (same s) fun out => ?_
    split
    · exact same s
    · refine check (same s) fun _ => ?_
      split
      · exact same s
      · refine .andThen (.andThen (modComp s c fun _ => rfl) (admitAll (s.hoistsOf_nodup c) fun h m => ?_)) (markServing _ c)
        rw [State.hoist_modComp]
        rw [not_or, Bool.not_eq_true] at out
        exact HoistState.not_handsOver_of_out (follows.out (State.mem_hoistsOf.1 m) out.1)

/-! ### Orders of the part -/

theorem proofWrite (s : State) (hours ceiling : Nat) : s.Spares (s.proofWrite hours ceiling).1 := by
  unfold State.proofWrite
  refine check ?_ fun _ => same s
  have evaluated : s.Spares (State.evaluateAll { s with proofInterval := hours * 3600, degradedCeiling := ceiling }) :=
    .andThen (t := { s with proofInterval := hours * 3600, degradedCeiling := ceiling }) (rest rfl rfl rfl rfl)
      (evaluateAll _)
  dsimp only [State.accept]
  split
  · exact evaluated.andThen (fold _ (fun s h => recompute s h) _ _)
  · exact evaluated

theorem maskWrite (s : State) (set : Half) : s.Spares (s.maskWrite set).1 := by
  unfold State.maskWrite
  exact check (rest rfl rfl rfl rfl) fun _ => same s

theorem status (s : State) : s.Spares s.status.1 := by
  unfold State.status State.clearStatus State.relatchRecords
  dsimp only
  split <;> exact rest rfl rfl rfl rfl

theorem readRecord (s : State) : s.Spares s.readRecord.1 := by
  unfold State.readRecord
  split
  · exact same s
  · exact rest rfl rfl rfl rfl

theorem logControl (s : State) (b : Byte) : s.Spares (s.logControl b).1 := by
  unfold State.logControl
  exact check (rest rfl rfl rfl rfl) fun _ => check (rest rfl rfl rfl rfl) fun _ => same s

theorem timerWrite (s : State) (p : TimerParams) : s.Spares (s.timerWrite p).1 := by
  unfold State.timerWrite
  split
  · exact same s
  · exact rest rfl rfl rfl rfl

/-! ### Queries -/

theorem zoneQuery (s : State) (b table : Byte) (i : Nat) : s.Spares (s.zoneQuery b table i).1 := by
  unfold State.zoneQuery
  split
  · exact same s
  · exact check (same s) fun _ => check (same s) fun _ => check (same s) fun _ => check (same s) fun _ => same s

theorem hoistQuery (s : State) (b : Byte) : s.Spares (s.hoistQuery b).1 := by
  unfold State.hoistQuery
  split <;> exact same s

theorem landingQuery (s : State) (b : Byte) : s.Spares (s.landingQuery b).1 := by
  unfold State.landingQuery
  split <;> exact same s

theorem massQuery (s : State) (b : Byte) : s.Spares (s.massQuery b).1 := by
  unfold State.massQuery
  split <;> exact same s

/-! ### The link -/

theorem indicate (s : State) (e : LinkError) : s.Spares (s.indicate e) := by cases e <;> exact rest rfl rfl rfl rfl

theorem dropOrder (s : State) (o : OrderHead) : s.Spares (s.dropOrder o) := by
  unfold State.dropOrder
  split <;> exact indicate s _

theorem takeDemand (s : State) (h : HoistId) (v : Half) : s.Spares (s.takeDemand h v) :=
  (superviseDemand s h _).andThen (restartDemandTimer _ h)

end State.Spares

end Sys2Proof.Machine
end

section
/-! ## The phases of a handover -/

namespace Sys2Proof.Machine

/-- The handover of the hoist at the landing, if there is one, has had its grant. -/
def State.Granted (s : State) (l : LandingId) (h : HoistId) : Prop :=
  ∀ v ∈ (s.landing l).queue, v.hoist = h → v.phase ≠ .waiting

theorem State.Granted.spared {s t : State} {l : LandingId} {h : HoistId} (x : s.Granted l h) (a : s.Spares t) :
    t.Granted l h := by
  intro v' inside e waits
  obtain ⟨v, old, kept⟩ := (a.landing l).queue.mem inside
  exact x v old (kept.hoist.symm.trans e) (kept.waiting.1 waits)

namespace State.Spares

theorem modHandover {s : State} {l : LandingId} {h : HoistId} {f : Handover → Handover}
    (kept : ∀ v ∈ (s.landing l).queue, v.hoist = h → v.Kept (f v)) : s.Spares (s.modHandover l h f) := by
  refine ⟨fun _ => .same _, fun y => ?_, fun c => by cases c <;> exact id⟩
  unfold State.modHandover
  rw [State.landing_modLanding]
  split
  · rename_i e
    subst e
    refine ⟨⟨.map fun v inside => ?_, rfl, rfl, rfl, rfl⟩, rfl⟩
    split
    · exact kept v inside ‹_›
    · exact .same v
  · exact .same _

theorem settle (s : State) (l : LandingId) (h : HoistId) (o : HandoverOutcome) : s.Spares (s.settle l h o) :=
  modHandover fun _ _ _ => ⟨rfl, .rfl, id, id⟩

theorem markWaited (s : State) (l : LandingId) (h : HoistId) : s.Spares (s.markWaited l h) := by
  refine .andThen (modHandover fun _ _ _ => ?_) (mod _ h _ (Hoist.spared_modMove _ _))
  exact ⟨rfl, .rfl, id, id⟩

theorem requestFor (s : State) (l : LandingId) (v : Handover) (q : ShuttleRequest) : s.Spares (s.requestFor l v q) :=
  give s _ _

theorem toUnlatching {s : State} {l : LandingId} {v : Handover} (granted : s.Granted l v.hoist) :
    s.Spares (s.toUnlatching l v) := by
  refine .andThen (modHandover fun x inside e => ?_) (requestFor _ l v _)
  have past := granted x inside e
  exact ⟨rfl, ⟨nofun, fun w => absurd w past⟩, fun _ => ⟨fun _ => .inr (.inr rfl), fun _ => rfl⟩, fun c _ => c past⟩

theorem toTransferring {s : State} {l : LandingId} {v : Handover} (granted : s.Granted l v.hoist) :
    s.Spares (s.toTransferring l v) := by
  refine .andThen (modHandover fun x inside e => ?_) (requestFor _ l v _)
  have past := granted x inside e
  exact ⟨rfl, ⟨nofun, fun w => absurd w past⟩, fun _ => ⟨fun _ => .inr (.inl rfl), fun _ => rfl⟩, fun c _ => c past⟩

theorem toStuck {s : State} {l : LandingId} {h : HoistId} (granted : s.Granted l h) : s.Spares (s.toStuck l h) := by
  refine .andThen (modHandover fun x inside e => ?_) (latch _ _)
  have past := granted x inside e
  exact ⟨rfl, ⟨nofun, fun w => absurd w past⟩, fun _ => ⟨nofun, by rintro (e | e | e) <;> cases e⟩, fun c _ => c past⟩

theorem revertSlot (s : State) (l : LandingId) (v : Handover) : s.Spares (s.revertSlot l v) := by
  unfold State.revertSlot
  split
  · exact setSlot s _ _ _
  · exact setSlot s _ _ _
  · exact same s

theorem undoLatch {s : State} {l : LandingId} {v : Handover} (granted : s.Granted l v.hoist) (o : HandoverOutcome) :
    s.Spares (s.undoLatch l v o) := by
  have settled : s.Spares ((s.revertSlot l v).settle l v.hoist o) := (revertSlot s l v).andThen (settle _ _ _ _)
  exact settled.andThen (toUnlatching (granted.spared settled))

theorem latchFailure {s : State} {l : LandingId} {v : Handover} (granted : s.Granted l v.hoist) :
    s.Spares (s.latchFailure l v) := (undoLatch granted _).andThen (latch _ _)

theorem transferFailure {s : State} {l : LandingId} {v : Handover} (granted : s.Granted l v.hoist) :
    s.Spares (s.transferFailure l v) := by
  have lost : ∀ u : State, s.Spares u → s.Spares ((u.setCarried v.hoist .unknownLoad).toStuck l v.hoist) := by
    intro u a
    have carried := a.andThen (setCarried u v.hoist .unknownLoad)
    exact carried.andThen (toStuck (granted.spared carried))
  unfold State.transferFailure
  dsimp only
  split
  · exact lost _ ((setStatus s _ _).andThen (setSlot _ _ _ _))
  · exact lost _ (same s)

theorem applyTransfer (s : State) (l : LandingId) (v : Handover) (i : Nat) (m : MassId) :
    s.Spares (s.applyTransfer l v i m) := by
  unfold State.applyTransfer
  split <;> exact ((setSlot s _ _ _).andThen (setCarried _ _ _)).andThen (setStatus _ _ _)

theorem applyMismatch (s : State) (l : LandingId) (v : Handover) (i : Nat) (m : MassId) (tag : Byte) :
    s.Spares (s.applyMismatch l v i m tag) := by
  have left : ∀ u : State, s.Spares u → s.Spares (((match v.kind with
      | .deposit => u.setCarried v.hoist .none
      | .collect => u.setSlot l i .empty).setStatus m (.uncertain none)).latch .tag) := by
    intro u a
    refine .andThen (.andThen ?_ (setStatus _ _ _)) (latch _ _)
    split
    · exact a.andThen (setCarried u _ _)
    · exact a.andThen (setSlot u _ _ _)
  unfold State.applyMismatch
  dsimp only
  refine left _ ?_
  split
  · split
    · exact ((doubtPlace s _).andThen (setSlot _ _ _ _)).andThen (setStatus _ _ _)
    · exact ((doubtPlace s _).andThen (setCarried _ _ _)).andThen (setStatus _ _ _)
  · split
    · exact setSlot s _ _ _
    · exact setCarried s _ _

theorem transferDone {s : State} {l : LandingId} {v : Handover} (granted : s.Granted l v.hoist) (tag : Byte) :
    s.Spares (s.transferDone l v tag) := by
  have closed : ∀ (u : State) (i : Nat), s.Spares u → s.Spares
      ((((u.setWeighPending v.hoist (v.kind == .collect)).modRecord l fun rec =>
        { rec with pointer := (i + 1) % rec.slots.length }).settle l v.hoist .done).toUnlatching l v) := by
    intro u i a
    have settled := ((a.andThen (setWeighPending u v.hoist (v.kind == .collect))).andThen
      (modRecord _ l (f := fun rec => { rec with pointer := (i + 1) % rec.slots.length }) fun _ => rfl)).andThen
        (settle _ l v.hoist .done)
    exact settled.andThen (toUnlatching (granted.spared settled))
  unfold State.transferDone
  split
  · dsimp only
    split
    · exact closed _ _ (applyTransfer s l v _ _)
    · exact closed _ _ (applyMismatch s l v _ _ _)
  · exact same s

theorem applyResolve (s : State) (l : LandingId) (v : Handover) (x : ResolveOutcome) : s.Spares (s.applyResolve l v x) := by
  unfold State.applyResolve
  split
  · split <;>
      exact (((setStatus s _ _).andThen (setSlot _ _ _ _)).andThen (setCarried _ _ _)).andThen (setWeighPending _ _ _)
  · exact same s

theorem handoverTimeout {s : State} {l : LandingId} {v : Handover} (granted : v.phase ≠ .waiting → s.Granted l v.hoist) :
    s.Spares (s.handoverTimeout l v) := by
  unfold State.handoverTimeout
  split
  · rename_i e
    exact latchFailure (granted (by rw [e]; exact nofun))
  · rename_i e
    exact transferFailure (granted (by rw [e]; exact nofun))
  · rename_i e
    exact toStuck (granted (by rw [e]; exact nofun))
  · exact same s
  · exact same s

end State.Spares

end Sys2Proof.Machine
end

section
/-! ## The handovers, landing by landing -/

namespace Sys2Proof.Machine

/-! ### The local form -/

/-- A handover keeps its hoist: docked or tripped it stays, with the same configuration. -/
def Hoist.Stays (r r' : Hoist) : Prop := r.state.handsOver → r'.state.handsOver ∧ r'.config = r.config

theorem Hoist.Stays.same (r : Hoist) : r.Stays r := fun x => ⟨x, rfl⟩

theorem Hoist.Spared.stays {r r' : Hoist} (a : r.Spared r') : r.Stays r' := fun x => ⟨a.state.2 x, a.config x⟩

/-- What `State.HandoversSound` says of one landing. -/
structure State.LandingSound (s : State) (l : LandingId) : Prop where
  alone : ((s.landing l).queue.map Handover.hoist).Nodup
  each : ∀ v ∈ (s.landing l).queue, s.HandoverSound l v
  two : (s.landing l).queue.length ≤ 2
  sides : ∀ v ∈ (s.landing l).queue, ∀ w ∈ (s.landing l).queue, v.hoist ≠ w.hoist → ∀ c,
    (s.hoist v.hoist).inCompartment c = true → (s.hoist w.hoist).inCompartment c = false
  holder : ∀ h, (s.landing l).holder = .handover h → h ∈ (s.landing l).queue.map Handover.hoist
  survey : ((s.landing l).survey = true ↔ (s.landing l).holder = .survey) ∧
    (s.landing l).surveyTimer.isSome = (s.landing l).survey
  surveyed : (s.landing l).survey = true → (s.landing l).queue = [] ∧
    ∃ rec, (s.landing l).record = some rec ∧ ∀ c, rec.serves c = true → (s.comp c).state = .supervised
  serves : ∀ rec, (s.landing l).record = some rec → rec.servesA = true ∨ rec.servesB = true

/-- Nothing waits for the shuttle while it is free (R126). -/
def State.Served (s : State) (l : LandingId) : Prop :=
  (s.landing l).holder = .none → (s.landing l).shuttle = .idle → ∀ v ∈ (s.landing l).queue, v.phase ≠ .waiting

/-- `State.HandoversSound`, but that at one landing the arbiter may be due. -/
structure State.Handed (s : State) (due : Option LandingId) : Prop where
  landing : ∀ l, s.LandingSound l
  apart : ∀ l m, l ≠ m → ∀ v ∈ (s.landing l).queue, ∀ w ∈ (s.landing m).queue, v.hoist ≠ w.hoist
  docked : ∀ h, (s.hoist h).state = .docked → ∃ l, h ∈ (s.landing l).queue.map Handover.hoist
  served : ∀ l, due ≠ some l → s.Served l

theorem State.handoverHoists_eq (s : State) :
    s.handovers.map Handover.hoist = allLandings.flatMap fun l => (s.landing l).queue.map Handover.hoist := by
  unfold State.handovers
  rw [List.map_flatMap]

theorem State.handoversSound_iff {s : State} : s.HandoversSound ↔ s.Handed none := by
  have disjoint : ∀ l m, List.Disjoint ((s.landing l).queue.map Handover.hoist) ((s.landing m).queue.map Handover.hoist) ↔
      ∀ v ∈ (s.landing l).queue, ∀ w ∈ (s.landing m).queue, v.hoist ≠ w.hoist := by
    intro l m
    simp only [List.disjoint_left, List.mem_map, not_exists, not_and, forall_exists_index, and_imp,
      forall_apply_eq_imp_iff₂]
    exact ⟨fun a v i w j e => a v i w j e.symm, fun a v i w j e => a v i w j e.symm⟩
  have member : ∀ h, h ∈ s.handovers.map Handover.hoist ↔ ∃ l, h ∈ (s.landing l).queue.map Handover.hoist := by
    intro h
    rw [State.handoverHoists_eq, List.mem_flatMap]
    exact exists_congr fun l => and_iff_right (mem_allLandings l)
  constructor
  · rintro ⟨one, docked, each, two, sides, holder, survey, surveyed, serves, granted⟩
    rw [State.handoverHoists_eq, List.nodup_flatMap] at one
    obtain ⟨alone, apart⟩ := one
    refine ⟨fun l => ⟨alone l (mem_allLandings l), each l, two l, sides l, holder l, survey l, surveyed l, serves l⟩,
      fun l m ne => (disjoint l m).1 ?_, fun h e => (member h).1 (docked h e), fun l _ => granted l⟩
    have : Std.Symm (Function.onFun List.Disjoint fun l => (s.landing l).queue.map Handover.hoist) :=
      ⟨fun _ _ d => d.symm⟩
    exact apart.forall (mem_allLandings l) (mem_allLandings m) ne
  · rintro ⟨landing, apart, docked, served⟩
    refine ⟨?_, fun h e => (member h).2 (docked h e), fun l => (landing l).each, fun l => (landing l).two,
      fun l => (landing l).sides, fun l => (landing l).holder, fun l => (landing l).survey, fun l => (landing l).surveyed,
      fun l => (landing l).serves, fun l => served l nofun⟩
    rw [State.handoverHoists_eq, List.nodup_flatMap]
    refine ⟨fun l _ => (landing l).alone, List.Nodup.pairwise_of_forall_ne ?_ fun l _ m _ ne => (disjoint l m).2 (apart l m ne)⟩
    rw [allLandings_eq]
    exact List.nodup_finRange 16

/-! ### What a landing's soundness rests on -/

theorem LandingRec.serves_of_sides {a b : LandingRec} (e : a.sides = b.sides) (c : Compartment) : a.serves c = b.serves c := by
  obtain ⟨ea, eb⟩ := Prod.mk.inj e
  cases c
  · exact ea
  · exact eb

/-- A record of the same served set, where there was one. -/
theorem LandingRec.of_sides {x y : Option LandingRec} (e : y.map LandingRec.sides = x.map LandingRec.sides)
    {rec : LandingRec} (held : x = some rec) : ∃ rec', y = some rec' ∧ rec'.sides = rec.sides := by
  subst held
  cases y with
  | none => cases e
  | some r => exact ⟨r, rfl, Option.some.inj e⟩

theorem Hoist.inCompartment_congr {r r' : Hoist} (e : r'.config = r.config) (c : Compartment) :
    r'.inCompartment c = r.inCompartment c := by
  unfold Hoist.inCompartment
  rw [e]

/-- Soundness at a landing rests on the landing, the hoists of its handovers and, during a survey, the compartments it
serves. -/
theorem State.LandingSound.manned {s t : State} {l : LandingId} (x : s.LandingSound l)
    (same : (s.landing l).Manned (t.landing l))
    (stays : ∀ v ∈ (s.landing l).queue, (s.hoist v.hoist).Stays (t.hoist v.hoist))
    (held : (s.landing l).survey = true → ∀ rec, (s.landing l).record = some rec → ∀ c, rec.serves c = true →
      (s.comp c).state = .supervised → (t.comp c).state = .supervised) : t.LandingSound l := by
  have stayed : ∀ v ∈ (s.landing l).queue,
      (t.hoist v.hoist).state.handsOver ∧ (t.hoist v.hoist).config = (s.hoist v.hoist).config :=
    fun v inside => stays v inside (x.each v inside).hoist
  refine ⟨by rw [same.queue.hoists]; exact x.alone, fun v' inside => ?_, same.queue.length_eq ▸ x.two,
    fun v' iv w' iw ne c => ?_, fun h e => ?_, ?_, fun on => ?_, fun rec' e => ?_⟩
  · obtain ⟨v, old, kept⟩ := same.queue.mem inside
    obtain ⟨state, config⟩ := stayed v old
    obtain ⟨-, holds, timed, chosen, rec, k, record, configured, serves⟩ := x.each v old
    obtain ⟨rec', record', sides⟩ := LandingRec.of_sides same.sides record
    refine ⟨kept.hoist ▸ state, ?_, kept.timed timed, kept.chosen chosen, rec', k, record', ?_, ?_⟩
    · rw [same.holder, kept.hoist, ← holds, ne_eq, kept.waiting]
    · rw [kept.hoist, config, configured]
    · rw [LandingRec.serves_of_sides sides, serves]
  · obtain ⟨v, oldv, keptv⟩ := same.queue.mem iv
    obtain ⟨w, oldw, keptw⟩ := same.queue.mem iw
    rw [keptv.hoist, keptw.hoist] at *
    rw [Hoist.inCompartment_congr (stayed v oldv).2, Hoist.inCompartment_congr (stayed w oldw).2]
    exact x.sides v oldv w oldw ne c
  · rw [same.queue.hoists]
    exact x.holder h (same.holder ▸ e)
  · rw [same.survey, same.holder, same.surveyTimer]
    exact x.survey
  · rw [same.survey] at on
    obtain ⟨empty, rec, record, supervised⟩ := x.surveyed on
    obtain ⟨rec', record', sides⟩ := LandingRec.of_sides same.sides record
    refine ⟨?_, rec', record', fun c served => ?_⟩
    · have queue := same.queue
      rw [empty] at queue
      exact List.forall₂_nil_left_iff.1 queue
    · rw [LandingRec.serves_of_sides sides] at served
      exact held on rec record c served (supervised c served)
  · obtain ⟨rec, record, sides⟩ := LandingRec.of_sides same.sides.symm e
    obtain ⟨ea, eb⟩ := Prod.mk.inj sides
    rw [← ea, ← eb]
    exact x.serves rec record

theorem State.Served.spared {s t : State} {l : LandingId} (x : s.Served l) (same : (s.landing l).Spared (t.landing l)) :
    t.Served l := by
  intro free idle v' inside waits
  obtain ⟨v, old, kept⟩ := same.queue.mem inside
  exact x (same.holder ▸ free) (same.shuttle ▸ idle) v old (kept.waiting.1 waits)

/-! ### Changes that open and close no handover -/

theorem State.Handed.kept {s t : State} {due : Option LandingId} (x : s.Handed due)
    (landing : ∀ l, (s.landing l).Spared (t.landing l))
    (docks : ∀ h, (t.hoist h).state = .docked → (s.hoist h).state = .docked)
    (stays : ∀ l, ∀ v ∈ (s.landing l).queue, (s.hoist v.hoist).Stays (t.hoist v.hoist))
    (held : ∀ l, (s.landing l).survey = true → ∀ rec, (s.landing l).record = some rec → ∀ c, rec.serves c = true →
      (s.comp c).state = .supervised → (t.comp c).state = .supervised) : t.Handed due := by
  refine ⟨fun l => (x.landing l).manned (landing l).toManned (stays l) (held l), fun l m ne v' iv w' iw => ?_, fun h e => ?_,
    fun l no => (x.served l no).spared (landing l)⟩
  · obtain ⟨v, oldv, keptv⟩ := (landing l).queue.mem iv
    obtain ⟨w, oldw, keptw⟩ := (landing m).queue.mem iw
    rw [keptv.hoist, keptw.hoist]
    exact x.apart l m ne v oldv w oldw
  · obtain ⟨l, inside⟩ := x.docked h (docks h e)
    exact ⟨l, (landing l).queue.hoists ▸ inside⟩

theorem State.Handed.spared {s t : State} {due : Option LandingId} (x : s.Handed due) (a : s.Spares t) : t.Handed due :=
  x.kept a.landing (fun h => (a.hoist h).state.1) (fun _ v _ => (a.hoist v.hoist).stays) fun _ _ _ _ c _ => a.comp c

/-- Nothing is due at a landing whose shuttle is held, or where nothing waits. -/
theorem State.Handed.done {s : State} {l : LandingId} (x : s.Handed (some l)) (served : s.Served l) : s.Handed none := by
  refine ⟨x.landing, x.apart, x.docked, fun m _ => ?_⟩
  by_cases e : l = m
  · exact e ▸ served
  · exact x.served m fun n => e (Option.some.inj n)

theorem State.Handed.due {s : State} (x : s.Handed none) (l : LandingId) : s.Handed (some l) :=
  ⟨x.landing, x.apart, x.docked, fun m _ => x.served m nofun⟩

/-! ### The handover that holds the shuttle -/

/-- A queue has one handover of each hoist. -/
theorem State.LandingSound.unique {s : State} {l : LandingId} (x : s.LandingSound l) {v w : Handover}
    (iv : v ∈ (s.landing l).queue) (iw : w ∈ (s.landing l).queue) (e : v.hoist = w.hoist) : v = w :=
  List.inj_on_of_nodup_map x.alone iv iw e

theorem State.LandingSound.granted {s : State} {l : LandingId} (x : s.LandingSound l) {v : Handover}
    (inside : v ∈ (s.landing l).queue) (past : v.phase ≠ .waiting) : s.Granted l v.hoist := by
  intro w other e
  rwa [x.unique other inside e]

end Sys2Proof.Machine
end

section
/-! ## Handovers that open and close -/

namespace Sys2Proof.Machine

/-! ### A change at one landing -/

/-- What a change at one landing, whose arbiter is then due, has to show. -/
theorem State.Handed.changed {s t : State} {l : LandingId} (x : s.Handed (some l))
    (others : ∀ y, y ≠ l → t.landing y = s.landing y)
    (stays : ∀ y, y ≠ l → ∀ v ∈ (s.landing y).queue, (s.hoist v.hoist).Stays (t.hoist v.hoist))
    (comp : ∀ c, t.comp c = s.comp c) (here : t.LandingSound l)
    (apart : ∀ v ∈ (t.landing l).queue, ∀ y, y ≠ l → ∀ w ∈ (s.landing y).queue, v.hoist ≠ w.hoist)
    (docked : ∀ h, (t.hoist h).state = .docked → ∃ y, h ∈ (t.landing y).queue.map Handover.hoist) : t.Handed (some l) := by
  have same : ∀ y, y ≠ l → (s.landing y).Spared (t.landing y) := fun y ne => others y ne ▸ .same _
  refine ⟨fun y => ?_, fun a b ne v iv w iw => ?_, docked, fun y no => ?_⟩
  · by_cases e : y = l
    · exact e ▸ here
    · exact (x.landing y).manned (same y e).toManned (stays y e) fun _ _ _ c _ held => by rwa [comp c]
  · by_cases ea : a = l
    · subst ea
      rw [others b ne.symm] at iw
      exact apart v iv b ne.symm w iw
    · rw [others a ea] at iv
      by_cases eb : b = l
      · subst eb
        exact (apart w iw a ea v iv).symm
      · rw [others b eb] at iw
        exact x.apart a b ne v iv w iw
  · have ne : y ≠ l := fun e => no (congrArg some e.symm)
    exact (x.served y no).spared (same y ne)

/-! ### A close (R131) -/

/-- A landing without the handover of a hoist. -/
def Landing.without (x : Landing) (h : HoistId) : Landing :=
  { x with
    queue := x.queue.filter fun v => v.hoist != h
    holder := if x.holder = .handover h then .none else x.holder }

theorem Landing.mem_without {x : Landing} {h : HoistId} {v : Handover} :
    v ∈ (x.without h).queue ↔ v ∈ x.queue ∧ v.hoist ≠ h := by
  unfold Landing.without
  rw [List.mem_filter, bne_iff_ne]

theorem State.removeHandover_eq (s : State) (l : LandingId) (h : HoistId) :
    s.removeHandover l h =
      if (s.hoist h).state = .docked then (s.setLanding l ((s.landing l).without h)).enter h .ready
      else (s.setLanding l ((s.landing l).without h)).recompute h := rfl

theorem State.landing_removeHandover (s : State) (l : LandingId) (h : HoistId) (y : LandingId) :
    (s.removeHandover l h).landing y = if y = l then (s.landing l).without h else s.landing y := by
  rw [State.removeHandover_eq]
  split
  · rw [State.landing_enter, State.landing_setLanding]
  · rw [State.landing_recompute, State.landing_setLanding]

theorem State.hoist_removeHandover_other (s : State) (l : LandingId) {h y : HoistId} (ne : y ≠ h) :
    (s.removeHandover l h).hoist y = s.hoist y := by
  rw [State.removeHandover_eq]
  split
  · rw [State.hoist_enter_other _ ne, State.hoist_setLanding]
  · rw [State.hoist_recompute_other _ ne, State.hoist_setLanding]

theorem State.state_removeHandover_self (s : State) (l : LandingId) (h : HoistId) :
    ((s.removeHandover l h).hoist h).state ≠ .docked := by
  rw [State.removeHandover_eq]
  split
  · obtain ⟨down, up, e⟩ := State.hoist_enter_self (s.setLanding l ((s.landing l).without h)) h .ready
    rw [e]
    exact nofun
  · rw [State.hoist_recompute, if_pos rfl]
    assumption

theorem State.comp_removeHandover (s : State) (l : LandingId) (h : HoistId) (c : Compartment) :
    (s.removeHandover l h).comp c = s.comp c := by
  rw [State.removeHandover_eq]
  split
  · rw [State.comp_enter, State.comp_setLanding]
  · rw [State.comp_recompute, State.comp_setLanding]

theorem State.Handed.removed {s : State} {l : LandingId} (x : s.Handed (some l)) (h : HoistId)
    (own : ∀ y, y ≠ l → h ∉ (s.landing y).queue.map Handover.hoist) : (s.removeHandover l h).Handed (some l) := by
  have here : (s.removeHandover l h).landing l = (s.landing l).without h := by
    rw [State.landing_removeHandover, if_pos rfl]
  have others : ∀ y, y ≠ l → (s.removeHandover l h).landing y = s.landing y := fun y ne => by
    rw [State.landing_removeHandover, if_neg ne]
  have hoist : ∀ v : Handover, v.hoist ≠ h → (s.removeHandover l h).hoist v.hoist = s.hoist v.hoist :=
    fun v ne => s.hoist_removeHandover_other l ne
  have sound := x.landing l
  refine x.changed others (fun y ne v inside => ?_) (s.comp_removeHandover l h) ?_ ?_ fun z docked => ?_
  · rw [hoist v fun e => own y ne (e ▸ List.mem_map_of_mem inside)]
    exact .same _
  · refine ⟨?_, ?_, ?_, ?_, ?_, ?_, ?_, ?_⟩ <;> rw [here]
    · exact sound.alone.sublist (List.filter_sublist.map _)
    · intro v inside
      obtain ⟨inside, ne⟩ := Landing.mem_without.1 inside
      obtain ⟨state, holds, timed, chosen, rec, k, record, config, serves⟩ := sound.each v inside
      refine ⟨by rwa [hoist v ne], ?_, timed, chosen, rec, k, by rwa [here], by rwa [hoist v ne], serves⟩
      rw [here, holds]
      unfold Landing.without
      dsimp only
      split
      · rename_i e
        rw [e]
        exact ⟨fun e => absurd (ShuttleHolder.handover.inj e).symm ne, nofun⟩
      · exact .rfl
    · exact (List.length_filter_le _ _).trans sound.two
    · intro v iv w iw
      obtain ⟨iv, nv⟩ := Landing.mem_without.1 iv
      obtain ⟨iw, nw⟩ := Landing.mem_without.1 iw
      rw [hoist v nv, hoist w nw]
      exact sound.sides v iv w iw
    · intro z e
      have held : (s.landing l).holder = .handover z ∧ z ≠ h := by
        unfold Landing.without at e
        dsimp only at e
        split at e
        · cases e
        · rename_i other
          exact ⟨e, fun same => other (same ▸ e)⟩
      obtain ⟨v, inside, rfl⟩ := List.mem_map.1 (sound.holder z held.1)
      exact List.mem_map_of_mem (Landing.mem_without.2 ⟨inside, held.2⟩)
    · obtain ⟨holds, timer⟩ := sound.survey
      refine ⟨holds.trans ?_, timer⟩
      unfold Landing.without
      dsimp only
      split
      · rename_i e
        rw [e]
        exact ⟨nofun, nofun⟩
      · exact .rfl
    · intro on
      obtain ⟨empty, rec, record, supervised⟩ := sound.surveyed on
      refine ⟨?_, rec, record, fun c served => by rw [State.comp_removeHandover]; exact supervised c served⟩
      unfold Landing.without
      dsimp only
      rw [empty]
      rfl
    · exact sound.serves
  · intro v inside y ne w other
    rw [here, Landing.mem_without] at inside
    exact x.apart l y ne.symm v inside.1 w other
  · have ne : z ≠ h := fun e => s.state_removeHandover_self l h (e ▸ docked)
    rw [s.hoist_removeHandover_other l ne] at docked
    obtain ⟨y, inside⟩ := x.docked z docked
    by_cases e : y = l
    · subst e
      obtain ⟨v, queued, rfl⟩ := List.mem_map.1 inside
      exact ⟨y, by rw [here]; exact List.mem_map_of_mem (Landing.mem_without.2 ⟨queued, ne⟩)⟩
    · exact ⟨y, by rwa [others y e]⟩

/-- The hoist of a handover has no other. -/
theorem State.Handed.own {s : State} {due : Option LandingId} (x : s.Handed due) {l : LandingId} {h : HoistId}
    (inside : h ∈ (s.landing l).queue.map Handover.hoist) (y : LandingId) (ne : y ≠ l) :
    h ∉ (s.landing y).queue.map Handover.hoist := by
  intro other
  obtain ⟨v, iv, rfl⟩ := List.mem_map.1 inside
  obtain ⟨w, iw, e⟩ := List.mem_map.1 other
  exact x.apart y l ne w iw v iv e

/-! ### A grant (R127) -/

/-- A landing whose shuttle a handover of its queue holds, latching. -/
def Landing.latching (x : Landing) (v : Handover) : Landing :=
  { x with holder := .handover v.hoist, queue := x.queue.map fun w => if w.hoist = v.hoist then v else w }

theorem Landing.mem_latching {x : Landing} {v w : Handover} (m : w ∈ (x.latching v).queue) :
    w = v ∨ w ∈ x.queue ∧ w.hoist ≠ v.hoist := by
  obtain ⟨u, inside, e⟩ := List.mem_map.1 m
  split at e
  · exact .inl e.symm
  · exact .inr ⟨e ▸ inside, e ▸ ‹_›⟩

theorem Landing.latching_hoists (x : Landing) (v : Handover) :
    (x.latching v).queue.map Handover.hoist = x.queue.map Handover.hoist := by
  unfold Landing.latching
  rw [List.map_map]
  refine List.map_congr_left fun w _ => ?_
  rw [Function.comp_apply]
  split
  · exact ‹w.hoist = v.hoist›.symm
  · rfl

theorem State.Handed.latching {s : State} {l : LandingId} (x : s.Handed (some l)) (free : (s.landing l).holder = .none)
    {v : Handover} (inside : v.hoist ∈ (s.landing l).queue.map Handover.hoist) (phase : v.phase = .latching)
    (timed : v.timer.isSome = true) (chosen : v.Chosen) :
    (s.setLanding l ((s.landing l).latching v)).Handed (some l) := by
  have here : (s.setLanding l ((s.landing l).latching v)).landing l = (s.landing l).latching v :=
    State.setLanding_landing_self ..
  have sound := x.landing l
  obtain ⟨v₀, held, same⟩ := List.mem_map.1 inside
  have queued : ∀ w ∈ ((s.landing l).latching v).queue, ∃ w₀ ∈ (s.landing l).queue, w₀.hoist = w.hoist := by
    intro w m
    rcases Landing.mem_latching m with rfl | ⟨old, _⟩
    · exact ⟨v₀, held, same⟩
    · exact ⟨w, old, rfl⟩
  have surveys : (s.landing l).survey ≠ true := fun on => by
    have holds := sound.survey.1.1 on
    rw [free] at holds
    cases holds
  refine x.changed (fun y ne => State.setLanding_landing_ne _ ne _) (fun y _ v _ => .same _)
    (fun c => State.comp_setLanding _ l _ c) ?_ ?_ fun z docked => ?_
  · refine ⟨?_, ?_, ?_, ?_, ?_, ?_, ?_, ?_⟩ <;> rw [here]
    · rw [Landing.latching_hoists]
      exact sound.alone
    · intro w m
      rcases Landing.mem_latching m with rfl | ⟨old, ne⟩
      · obtain ⟨state, -, -, -, rec, k, record, config, serves⟩ := sound.each v₀ held
        rw [same] at state config
        refine ⟨state, ?_, ?_, chosen, rec, k, by rwa [here], config, serves⟩
        · rw [here, phase]
          exact ⟨fun _ => rfl, fun _ => nofun⟩
        · exact ⟨fun _ => .inl phase, fun _ => timed⟩
      · obtain ⟨state, holds, times, choice, rec, k, record, config, serves⟩ := sound.each w old
        refine ⟨state, ?_, times, choice, rec, k, by rwa [here], config, serves⟩
        rw [here, holds, free]
        exact ⟨nofun, fun e => absurd (ShuttleHolder.handover.inj e).symm ne⟩
    · exact (List.length_map _).trans_le sound.two
    · intro a ia b ib ne c
      obtain ⟨a₀, olda, ea⟩ := queued a ia
      obtain ⟨b₀, oldb, eb⟩ := queued b ib
      rw [← ea, ← eb] at ne ⊢
      exact sound.sides a₀ olda b₀ oldb ne c
    · intro h e
      rw [Landing.latching_hoists, ← ShuttleHolder.handover.inj e]
      exact inside
    · exact ⟨⟨fun on => absurd on surveys, nofun⟩, sound.survey.2⟩
    · exact fun on => absurd on surveys
    · exact sound.serves
  · intro a ia y ne w other
    rw [here] at ia
    obtain ⟨a₀, olda, ea⟩ := queued a ia
    rw [← ea]
    exact x.apart l y ne.symm a₀ olda w other
  · obtain ⟨y, m⟩ := x.docked z docked
    by_cases e : y = l
    · subst e
      exact ⟨y, by rwa [here, Landing.latching_hoists]⟩
    · exact ⟨y, by rwa [State.setLanding_landing_ne _ e]⟩

/-- A grant for which no slot is found closes the handover, as if the shuttle had not been taken (R127). -/
theorem State.removeHandover_held {s : State} {l : LandingId} (free : (s.landing l).holder = .none) (h : HoistId) :
    (((s.modLanding l fun x => { x with holder := .handover h }).latch .handover).removeHandover l h) =
      (s.latch .handover).removeHandover l h := by
  have same : (s.landing l).without h = Landing.without { s.landing l with holder := .handover h } h := by
    unfold Landing.without
    rw [free, if_pos rfl, if_neg nofun]
  change State.removeHandover ((s.latch .handover).setLanding l { s.landing l with holder := .handover h }) l h = _
  rw [State.removeHandover_eq, State.removeHandover_eq, State.setLanding_landing_self, State.setLanding_setLanding, ← same]
  rfl

/-- A landing once a slot of it is written. -/
def Landing.slotted (x : Landing) (i : Nat) (st : SlotState) : Landing :=
  { x with record := x.record.map fun rec => { rec with slots := rec.slots.set i st } }

theorem Landing.spared_slotted (x : Landing) (i : Nat) (st : SlotState) : x.Spared (x.slotted i st) := by
  refine ⟨⟨.same _, rfl, rfl, rfl, ?_⟩, rfl⟩
  unfold Landing.slotted
  cases x.record <;> rfl

/-- A grant that finds a slot reserves it and asks for LATCH (R127). -/
theorem State.grant_found {s : State} {l : LandingId} {v : Handover} {rec : LandingRec} {i : Nat} {m : MassId}
    (record : (s.landing l).record = some rec)
    (chosen : (s.modLanding l fun x => { x with holder := .handover v.hoist }).chooseSlot l rec v = some (i, m)) :
    s.grant l v = (s.setLanding l (((s.landing l).latching (v.granted s i m)).slotted i (.reserved m))).give .field
      (makeFrame (byte rec.station) kindShuttleReq [1, byte (s.hoist v.hoist).side, byte i]) := by
  rw [State.grant_eq rfl (by rw [State.landing_modLanding, if_pos rfl]; exact record), chosen, Option.elim_some]
  have taken : (s.modLanding l fun x => { x with holder := .handover v.hoist }) =
    s.setLanding l { s.landing l with holder := .handover v.hoist } := rfl
  rw [taken]
  unfold State.setSlot State.modRecord State.modHandover
  rw [State.modLanding_setLanding, State.modLanding_setLanding]
  unfold State.requestFor State.request Landing.stationByte
  rw [State.setLanding_landing_self, record]
  dsimp only [Option.map_some]
  unfold Landing.slotted Landing.latching
  rw [record]
  rfl

/-- A grant that finds no slot closes the handover and latches HANDOVER (R127, R131). -/
theorem State.grant_lost {s : State} {l : LandingId} {v : Handover} {rec : LandingRec}
    (record : (s.landing l).record = some rec) (free : (s.landing l).holder = .none)
    (none_ : (s.modLanding l fun x => { x with holder := .handover v.hoist }).chooseSlot l rec v = none) :
    s.grant l v = (s.latch .handover).removeHandover l v.hoist := by
  rw [State.grant_eq rfl (by rw [State.landing_modLanding, if_pos rfl]; exact record), none_, Option.elim_none,
    State.removeHandover_held free]

/-- What a grant leaves: the shuttle held, or the handover closed. -/
theorem State.Handed.grant {s : State} {l : LandingId} (x : s.Handed (some l)) (free : (s.landing l).holder = .none)
    {v : Handover} (inside : v.hoist ∈ (s.landing l).queue.map Handover.hoist) :
    (s.grant l v).Handed (some l) ∧ (((s.grant l v).landing l).holder ≠ .none ∨
      ((s.grant l v).landing l).queue.length < (s.landing l).queue.length) := by
  obtain ⟨v₀, held, same⟩ := List.mem_map.1 inside
  obtain ⟨-, -, -, -, rec, -, record, -⟩ := (x.landing l).each v₀ held
  cases chosen : (s.modLanding l fun x => { x with holder := .handover v.hoist }).chooseSlot l rec v with
  | none =>
    rw [State.grant_lost record free chosen]
    refine ⟨(x.spared (.latch s .handover)).removed v.hoist (x.own inside), .inr ?_⟩
    rw [State.landing_removeHandover, if_pos rfl]
    exact List.length_filter_lt_length_iff_exists.2 ⟨v₀, held, by rw [bne_iff_ne, not_not]; exact same⟩
  | some c =>
    obtain ⟨i, m⟩ := c
    have latching := x.latching (v := v.granted s i m) free inside rfl rfl fun _ => ⟨rfl, rfl⟩
    rw [State.grant_found record chosen]
    refine ⟨(latching.spared ?_).spared (.give _ _ _), .inl ?_⟩
    · refine ⟨fun _ => .same _, fun y => ?_, fun c => by cases c <;> exact id⟩
      rw [State.landing_setLanding, State.landing_setLanding]
      split
      · exact Landing.spared_slotted _ i _
      · exact .same _
    · rw [State.landing_give, State.setLanding_landing_self]
      exact nofun

/-! ### The arbiter (R126) -/

/-- With the shuttle taken nothing is due. -/
theorem State.Served.of_taken {s : State} {l : LandingId} (taken : ¬(s.landing l).shuttleFree = true) : s.Served l := by
  intro free idle
  refine absurd ?_ taken
  unfold Landing.shuttleFree
  rw [free, idle]
  rfl

theorem Landing.shuttleFree_iff {x : Landing} : x.shuttleFree = true ↔ x.holder = .none ∧ x.shuttle = .idle := by
  unfold Landing.shuttleFree
  rw [Bool.and_eq_true, beq_iff_eq, beq_iff_eq]

theorem State.Handed.arbiterFor {l : LandingId} (n : Nat) {s : State} (x : s.Handed (some l))
    (enough : (s.landing l).queue.length ≤ n) : (State.arbiterFor l n s).Handed none := by
  induction n generalizing s with
  | zero =>
    refine x.done fun _ _ v inside => ?_
    rw [List.length_eq_zero_iff.1 (Nat.le_zero.1 enough)] at inside
    cases inside
  | succ n ih =>
    unfold State.arbiterFor
    split
    · rename_i both
      obtain ⟨free, idle⟩ := Landing.shuttleFree_iff.1 both
      split
      · rename_i nobody
        refine x.done fun _ _ v inside waits => ?_
        exact List.filter_eq_nil_iff.1 nobody v inside (beq_iff_eq.2 waits)
      · rename_i first rest waiters
        dsimp only
        have member := foldl_choose_mem s.prefers first rest
        generalize rest.foldl (fun best w => if s.prefers w best = true then w else best) first = winner at member
        rw [← waiters] at member
        have losers := State.Spares.fold (fun s w => s.markWaited l w.hoist) (fun s w => .markWaited s l w.hoist)
          ((first :: rest).filter fun w => w.hoist != winner.hoist) s
        generalize ((first :: rest).filter fun w => w.hoist != winner.hoist).foldl
          (fun s w => s.markWaited l w.hoist) s = u at losers
        have queue := (losers.landing l).queue
        obtain ⟨granted, held | shorter⟩ := (x.spared losers).grant ((losers.landing l).holder.trans free) (v := winner)
          (by rw [queue.hoists]; exact List.mem_map_of_mem (List.mem_of_mem_filter member))
        · have taken : ¬((u.grant l winner).landing l).shuttleFree = true := fun free =>
            held (Landing.shuttleFree_iff.1 free).1
          rw [State.arbiterFor_taken (Bool.not_eq_true _ ▸ taken)]
          exact granted.done (.of_taken taken)
        · rw [← queue.length_eq] at shorter
          exact ih granted (by omega)
    · exact x.done (.of_taken ‹_›)

theorem State.Handed.arbiter {s : State} {l : LandingId} (x : s.Handed (some l)) : (s.arbiter l).Handed none :=
  x.arbiterFor _ le_rfl

theorem State.Handed.closed {s : State} {l : LandingId} {h : HoistId} (x : s.Handed none)
    (inside : h ∈ (s.landing l).queue.map Handover.hoist) : (s.closeHandover l h).Handed none :=
  ((x.due l).removed h (x.own inside)).arbiter

end Sys2Proof.Machine
end

section
/-! ## SHUTTLE_REPORT, surveys and the orders of the handovers -/

namespace Sys2Proof.Machine

/-! ### Landings without a handover -/

/-- A landing with nothing in its queue whose shuttle no handover holds is sound as soon as its survey and its served set
are. -/
theorem State.LandingSound.of_empty {s : State} {l : LandingId} (empty : (s.landing l).queue = [])
    (holder : ∀ h, (s.landing l).holder ≠ .handover h)
    (survey : ((s.landing l).survey = true ↔ (s.landing l).holder = .survey) ∧
      (s.landing l).surveyTimer.isSome = (s.landing l).survey)
    (surveyed : (s.landing l).survey = true →
      ∃ rec, (s.landing l).record = some rec ∧ ∀ c, rec.serves c = true → (s.comp c).state = .supervised)
    (serves : ∀ rec, (s.landing l).record = some rec → rec.servesA = true ∨ rec.servesB = true) : s.LandingSound l := by
  have nobody : ∀ v, v ∉ (s.landing l).queue := by
    rw [empty]
    exact fun _ => List.not_mem_nil
  refine ⟨?_, fun v inside => absurd inside (nobody v), ?_, fun v inside => absurd inside (nobody v),
    fun h e => absurd e (holder h), survey, fun on => ⟨empty, surveyed on⟩, serves⟩
  · rw [empty]
    exact List.nodup_nil
  · rw [empty]
    exact Nat.zero_le 2

/-- A landing with no handover is written. -/
theorem State.Handed.replaced {s : State} {l : LandingId} (x : s.Handed (some l)) (empty : (s.landing l).queue = [])
    {y : Landing} (queue : y.queue = []) (sound : (s.setLanding l y).LandingSound l) :
    (s.setLanding l y).Handed (some l) := by
  refine x.changed (fun z ne => State.setLanding_landing_ne _ ne _) (fun _ _ _ _ => .same _)
    (fun c => State.comp_setLanding _ l _ c) sound (fun v inside => ?_) fun h docked => ?_
  · rw [State.setLanding_landing_self, queue] at inside
    cases inside
  · obtain ⟨z, m⟩ := x.docked h docked
    have ne : z ≠ l := fun e => by
      rw [e, empty] at m
      cases m
    exact ⟨z, by rwa [State.setLanding_landing_ne _ ne]⟩

/-- A landing with no handover is written, and has no survey then. -/
theorem State.Handed.vacated {s : State} {l : LandingId} (x : s.Handed (some l)) (empty : (s.landing l).queue = [])
    {y : Landing} (queue : y.queue = []) (holder : y.holder = .none) (survey : y.survey = false)
    (timer : y.surveyTimer = none) (serves : ∀ rec, y.record = some rec → rec.servesA = true ∨ rec.servesB = true) :
    (s.setLanding l y).Handed (some l) := by
  refine x.replaced empty queue (.of_empty ?_ ?_ ?_ ?_ ?_) <;> rw [State.setLanding_landing_self]
  · exact queue
  · rw [holder]
    exact fun _ => nofun
  · rw [holder, survey, timer]
    exact ⟨⟨nofun, nofun⟩, rfl⟩
  · rw [survey]
    exact nofun
  · exact serves

theorem State.Served.of_empty {s : State} {l : LandingId} (empty : (s.landing l).queue = []) : s.Served l := by
  intro _ _ v inside
  rw [empty] at inside
  cases inside

/-! ### A survey's end and beginning (R152, R153) -/

theorem State.Handed.endSurvey {s : State} {l : LandingId} (x : s.Handed none) (on : (s.landing l).survey = true) :
    (s.endSurvey l).Handed none := by
  have sound := x.landing l
  exact ((x.due l).vacated (sound.surveyed on).1
    (y := { s.landing l with survey := false, surveyTimer := none, holder := .none }) (sound.surveyed on).1 rfl rfl rfl
    sound.serves).arbiter

theorem State.Handed.surveyFailure {s : State} {l : LandingId} (x : s.Handed none) (on : (s.landing l).survey = true) :
    (s.surveyFailure l).Handed none := (x.spared (.latch s .verify)).endSurvey on

theorem State.Handed.reportToSurvey {s : State} {l : LandingId} (x : s.Handed none) (on : (s.landing l).survey = true)
    (st : ShuttleState) (codes : List Byte) : (s.reportToSurvey l st codes).Handed none := by
  unfold State.reportToSurvey
  dsimp only
  split
  · split
    · have reconciled := State.Spares.reconcile s l (codes.take (s.landing l).slotCount)
      exact (x.spared reconciled).endSurvey ((reconciled.landing l).survey.trans on)
    · exact x.surveyFailure on
  · exact x.surveyFailure on
  all_goals exact x

theorem State.servesUnsupervised_eq_false {s : State} {rec : LandingRec} (e : s.servesUnsupervised rec = false) (c : Compartment)
    (serves : rec.serves c = true) : (s.comp c).state = .supervised := by
  unfold State.servesUnsupervised at e
  rw [Bool.or_eq_false_iff, Bool.and_eq_false_imp, Bool.and_eq_false_imp, Bool.not_eq_false', Bool.not_eq_false'] at e
  cases c
  · exact State.supervised_iff.1 (e.1 serves)
  · exact State.supervised_iff.1 (e.2 serves)

theorem State.definedLanding_some {s : State} {b : Byte} {l : LandingId} {rec : LandingRec}
    (e : s.definedLanding b = some (l, rec)) : (s.landing l).record = some rec := by
  unfold State.definedLanding at e
  split at e
  · split at e
    · cases e
      assumption
    · cases e
  · cases e

theorem State.Handed.verify {s : State} (x : s.Handed none) (b : Byte) : (s.verify b).1.Handed none := by
  unfold State.verify
  split
  · exact x
  · rename_i l rec defined
    have record := State.definedLanding_some defined
    split
    · exact x
    · rename_i supervised
      split
      · exact x
      · rename_i free
        rw [not_or, not_or, not_not, Bool.not_eq_true] at *
        obtain ⟨empty, off, -⟩ := free
        have sound := x.landing l
        refine State.Handed.spared (s := s.setLanding l _) ?_ (.give _ _ _)
        refine State.Handed.done (l := l) ((x.due l).replaced empty (by exact empty) (.of_empty ?_ ?_ ?_ ?_ ?_)) (.of_empty ?_) <;>
          rw [State.setLanding_landing_self]
        · exact empty
        · exact fun _ => nofun
        · exact ⟨⟨fun _ => rfl, fun _ => rfl⟩, rfl⟩
        · refine fun _ => ⟨rec, record, fun c serves => ?_⟩
          rw [State.comp_setLanding]
          exact State.servesUnsupervised_eq_false supervised c serves
        · exact sound.serves
        · exact empty

/-! ### SHUTTLE_REPORT -/

theorem State.Handed.reported {s : State} (x : s.Handed none) (l : LandingId) (st : ShuttleState) :
    (s.modLanding l fun y => { y with shuttle := st }).Handed (some l) := by
  have manned : (s.landing l).Manned ((s.modLanding l fun y => { y with shuttle := st }).landing l) := by
    rw [State.landing_modLanding, if_pos rfl]
    exact ⟨.same _, rfl, rfl, rfl, rfl⟩
  refine (x.due l).changed (fun y ne => ?_) (fun _ _ _ _ => .same _) (fun c => State.comp_modLanding _ l _ c)
    ((x.landing l).manned manned (fun _ _ => .same _) fun _ _ _ c _ held => by rwa [State.comp_modLanding]) ?_ ?_
  · rw [State.landing_modLanding, if_neg ne]
  · intro v inside y ne w other
    obtain ⟨v₀, old, kept⟩ := manned.queue.mem inside
    rw [kept.hoist]
    exact x.apart l y ne.symm v₀ old w other
  · intro h docked
    obtain ⟨y, inside⟩ := x.docked h docked
    refine ⟨y, ?_⟩
    rw [State.landing_modLanding]
    split
    · exact ‹y = l› ▸ inside
    · exact inside

theorem State.Handed.reportToHandover {s : State} {l : LandingId} (x : s.Handed none) {v : Handover}
    (inside : v ∈ (s.landing l).queue) (st : ShuttleState) (tag : Byte) :
    (s.reportToHandover l v st tag).Handed none := by
  have granted := (x.landing l).granted inside
  have latching : v.phase = .latching → v.phase ≠ .waiting := fun e => by rw [e]; exact nofun
  have transferring : v.phase = .transferring → v.phase ≠ .waiting := fun e => by rw [e]; exact nofun
  have unlatching : v.phase = .unlatching → v.phase ≠ .waiting := fun e => by rw [e]; exact nofun
  unfold State.reportToHandover
  split
  · exact x.spared (.toTransferring (granted (latching ‹_›)))
  · exact x.spared (.latchFailure (granted (latching ‹_›)))
  · exact x.spared (.transferDone (granted (transferring ‹_›)) tag)
  · exact x.spared (.transferFailure (granted (transferring ‹_›)))
  · exact x.spared (.transferFailure (granted (transferring ‹_›)))
  · exact x.closed (List.mem_map_of_mem inside)
  · exact x.spared (.toStuck (granted (unlatching ‹_›)))
  · exact x

theorem State.Handed.takeShuttleReport {s : State} (x : s.Handed none) (l : LandingId) (w : ShuttleWire) :
    (s.takeShuttleReport l w).Handed none := by
  have reported := x.reported l (shuttleStateOf w.state)
  unfold State.takeShuttleReport
  dsimp only
  generalize s.modLanding l _ = u at reported
  have held : (u.landing l).holder ≠ .none → u.Handed none := fun held =>
    reported.done fun free => absurd free held
  split
  · rename_i h e
    have sound := held (by rw [e]; exact nofun)
    split
    · rename_i v found
      exact sound.reportToHandover (List.mem_of_find?_eq_some found) _ _
    · exact sound
  · rename_i e
    exact (held (by rw [e]; exact nofun)).reportToSurvey ((reported.landing l).survey.1.2 e) _ _
  · exact reported.arbiter

theorem State.Handed.shuttlePath {s : State} (x : s.Handed none) (a : Byte) (w : ShuttleWire) :
    (s.shuttlePath a w).Handed none := by
  unfold State.shuttlePath
  split
  · exact x.takeShuttleReport _ w
  · exact x

/-! ### Expiries -/

theorem State.openHandover_some {s : State} {h : HoistId} {l : LandingId} {v : Handover}
    (e : s.openHandover h = some (l, v)) : v ∈ (s.landing l).queue ∧ v.hoist = h := by
  unfold State.openHandover at e
  obtain ⟨y, _, found⟩ := List.exists_of_findSome?_eq_some e
  split at found
  · rename_i w is
    cases found
    have same := List.find?_some is
    exact ⟨List.mem_of_find?_eq_some is, eq_of_beq same⟩
  · cases found

theorem State.openHandover_none {s : State} {h : HoistId} (e : s.openHandover h = none) (l : LandingId) :
    h ∉ (s.landing l).queue.map Handover.hoist := by
  unfold State.openHandover at e
  have here := List.findSome?_eq_none_iff.1 e l (mem_allLandings l)
  intro inside
  obtain ⟨v, queued, rfl⟩ := List.mem_map.1 inside
  split at here
  · cases here
  · rename_i nobody
    exact List.find?_eq_none.1 nobody v queued (beq_self_eq_true _)

theorem State.Handed.expiry {s : State} (x : s.Handed none) (timer : Option Nat) (f : State → State)
    (each : timer.isSome = true → (f s).Handed none) : (expiry s timer f).Handed none := by
  unfold Machine.expiry
  split
  · rename_i due
    refine each ?_
    cases timer with
    | none => cases due
    | some _ => rfl
  · exact x

/-! ### ABORT_TRANSFER and RESOLVE -/

theorem State.Handed.abortTransfer {s : State} (x : s.Handed none) (b : Byte) : (s.abortTransfer b).1.Handed none := by
  unfold State.abortTransfer
  split
  · exact x
  · split
    · exact x
    · rename_i h _ _ l v found
      obtain ⟨inside, rfl⟩ := State.openHandover_some found
      split
      · exact x.closed (List.mem_map_of_mem inside)
      · rename_i latching
        exact x.spared (.undoLatch ((x.landing l).granted inside (by rw [latching]; exact nofun)) _)
      all_goals exact x

theorem State.Handed.resolve {s : State} (x : s.Handed none) (b outcome : Byte) : (s.resolve b outcome).1.Handed none := by
  unfold State.resolve
  split
  · exact x
  · split
    · exact x
    · rename_i kind _
      split
      · exact x
      · rename_i h _ _ l v found
        obtain ⟨inside, rfl⟩ := State.openHandover_some found
        split
        · exact x
        · rename_i stuck
          have granted := (x.landing l).granted inside (by rw [not_not.1 stuck]; exact nofun)
          split
          · exact x.spared (.toUnlatching granted)
          · have settled := (State.Spares.applyResolve s l v kind).andThen (.settle _ l v.hoist .failed)
            exact x.spared (settled.andThen (.toUnlatching (granted.spared settled)))

end Sys2Proof.Machine
end

section
/-! ## TRANSFER, and the orders that place hoists and landings -/

namespace Sys2Proof.Machine

/-! ### TRANSFER -/

theorem foldl_nearerLanding_some {f : LandingId → Option Nat} {ls : List LandingId} {best : Option (LandingId × Nat)}
    {b : LandingId × Nat} (e : ls.foldl (fun best y => nearerLanding best y (f y)) best = some b) :
    best = some b ∨ f b.1 = some b.2 := by
  induction ls generalizing best with
  | nil => exact .inl e
  | cons y ys ih =>
    rcases ih e with chosen | found
    · dsimp only [nearerLanding] at chosen
      split at chosen
      · split at chosen
        · cases chosen
          exact .inr ‹_›
        · exact .inl chosen
      · cases chosen
        exact .inr ‹_›
      · exact .inl chosen
    · exact .inr found

/-- The docking landing serves the compartment (R123, check 4). -/
theorem State.dockingLanding_serves {s : State} {c : Compartment} {depth : Nat} {l : LandingId}
    (e : s.dockingLanding c depth = some l) : ∃ rec, (s.landing l).record = some rec ∧ rec.serves c = true := by
  unfold State.dockingLanding at e
  rw [Option.map_eq_some_iff] at e
  obtain ⟨b, found, rfl⟩ := e
  rcases foldl_nearerLanding_some found with none_ | distance
  · cases none_
  · unfold State.dockingDistance at distance
    split at distance
    · rename_i rec record
      dsimp only at distance
      split at distance
      · exact ⟨rec, record, ‹_ ∧ _›.1⟩
      · cases distance
    · cases distance

/-- A hoist that is neither DOCKED nor TRIPPED is in no queue. -/
theorem State.Handed.alone {s : State} {due : Option LandingId} (x : s.Handed due) {h : HoistId}
    (idle : ¬(s.hoist h).state.handsOver) (l : LandingId) : ∀ v ∈ (s.landing l).queue, v.hoist ≠ h := by
  rintro v inside rfl
  exact idle ((x.landing l).each v inside).hoist

/-- A handover joins a queue, with its hoist docked (R124). -/
theorem State.Handed.queued {s : State} {l : LandingId} (x : s.Handed (some l)) {v : Handover} {k : HoistConfig}
    {rec : LandingRec} (idle : ¬(s.hoist v.hoist).state.handsOver) (config : (s.hoist v.hoist).config = some k)
    (record : (s.landing l).record = some rec) (serves : rec.serves k.compartment = true)
    (survey : (s.landing l).survey = false) (room : (s.landing l).queue.length < 2)
    (sides : ∀ w ∈ (s.landing l).queue, (s.hoist w.hoist).inCompartment k.compartment = false)
    (waits : v.phase = .waiting) (timer : v.timer = none) :
    ((s.setHoist v.hoist (s.hoist v.hoist).docked).setLanding l ((s.landing l).queued v)).Handed (some l) := by
  have others : ∀ y, ∀ w ∈ (s.landing y).queue, w.hoist ≠ v.hoist := x.alone idle
  generalize made : (s.setHoist v.hoist (s.hoist v.hoist).docked).setLanding l ((s.landing l).queued v) = t
  have here : t.landing l = (s.landing l).queued v := made ▸ State.setLanding_landing_self ..
  have self : t.hoist v.hoist = (s.hoist v.hoist).docked := by
    rw [← made, State.hoist_setLanding, State.setHoist_hoist_self]
  have same : ∀ y, y ≠ v.hoist → t.hoist y = s.hoist y := fun y ne => by
    rw [← made, State.hoist_setLanding, State.setHoist_hoist_ne _ ne]
  have comp : ∀ c, t.comp c = s.comp c := fun c => by
    rw [← made, State.comp_setLanding, State.comp_setHoist]
  have mem : ∀ w, w ∈ ((s.landing l).queued v).queue ↔ w ∈ (s.landing l).queue ∨ w = v := fun w => by
    unfold Landing.queued
    rw [List.mem_append, List.mem_singleton]
  have sound := x.landing l
  have side : ∀ c, (t.hoist v.hoist).inCompartment c = true → c = k.compartment := by
    intro c inside
    rw [self] at inside
    obtain ⟨k', config', rfl⟩ := Hoist.inCompartment_iff.1 inside
    cases config.symm.trans config'
    rfl
  refine x.changed (fun y ne => ?_) (fun y _ w inside => by rw [same _ (others y w inside)]; exact .same _) comp ?_ ?_ ?_
  · rw [← made, State.setLanding_landing_ne _ ne, State.landing_setHoist]
  · refine ⟨?_, ?_, ?_, ?_, ?_, ?_, ?_, ?_⟩ <;> rw [here]
    · unfold Landing.queued
      rw [List.map_append, List.map_singleton, List.nodup_append]
      refine ⟨sound.alone, List.nodup_singleton _, fun a inside b is => ?_⟩
      obtain ⟨w, queued, rfl⟩ := List.mem_map.1 inside
      rw [List.mem_singleton.1 is]
      exact others l w queued
    · intro w inside
      rcases (mem w).1 inside with old | rfl
      · obtain ⟨state, holds, timed, chosen, rec', k', record', config', serves'⟩ := sound.each w old
        have e := same w.hoist (others l w old)
        refine ⟨by rwa [e], ?_, timed, chosen, rec', k', by rwa [here], by rwa [e], serves'⟩
        rw [here]
        exact holds
      · refine ⟨by rw [self]; exact .inl rfl, ?_, ?_, fun past => absurd waits past, rec, k, by rwa [here],
          by rw [self]; exact config, serves⟩
        · rw [here]
          refine ⟨fun past => absurd waits past, fun held => ?_⟩
          obtain ⟨u, queued, e⟩ := List.mem_map.1 (sound.holder _ held)
          exact absurd e (others l u queued)
        · rw [timer, waits]
          exact ⟨nofun, by rintro (e | e | e) <;> cases e⟩
    · unfold Landing.queued
      rw [List.length_append]
      exact room
    · intro a ia b ib ne c
      rcases (mem a).1 ia with olda | rfl <;> rcases (mem b).1 ib with oldb | rfl
      · rw [same _ (others l a olda), same _ (others l b oldb)]
        exact sound.sides a olda b oldb ne c
      · intro inside
        refine Bool.eq_false_iff.2 fun held => ?_
        rw [same _ (others l a olda), side c held, sides a olda] at inside
        cases inside
      · intro inside
        rw [same _ (others l b oldb), side c inside]
        exact sides b oldb
      · exact absurd rfl ne
    · intro h held
      obtain ⟨w, old, e⟩ := List.mem_map.1 (sound.holder h held)
      exact List.mem_map.2 ⟨w, (mem w).2 (.inl old), e⟩
    · exact sound.survey
    · exact fun on => absurd (survey.symm.trans on) nofun
    · exact sound.serves
  · intro w inside y ne u other
    rw [here, mem] at inside
    rcases inside with old | rfl
    · exact x.apart l y ne.symm w old u other
    · exact (others y u other).symm
  · intro h docked
    by_cases e : h = v.hoist
    · exact ⟨l, by rw [here]; exact e ▸ List.mem_map_of_mem ((mem v).2 (.inr rfl))⟩
    · rw [same h e] at docked
      obtain ⟨y, inside⟩ := x.docked h docked
      refine ⟨y, ?_⟩
      rw [← made, State.landing_setLanding]
      split
      · rename_i e
        obtain ⟨w, old, e'⟩ := List.mem_map.1 (e ▸ inside)
        exact List.mem_map.2 ⟨w, (mem w).2 (.inl old), e'⟩
      · rwa [State.landing_setHoist]

/-- A check that refuses an order, and what comes of the order where it passes. -/
theorem State.Handed.check {s : State} {p : Prop} [Decidable p] {r : Result} {y : State × Reply} (x : s.Handed none)
    (passes : ¬p → y.1.Handed none) : (if p then s.refuse r else y).1.Handed none := by
  split
  · exact x
  · exact passes ‹_›

theorem State.Handed.transfer {s : State} (x : s.Handed none) (b kind selector mass : Byte) :
    (s.transfer b kind selector mass).1.Handed none := by
  have opened : ∀ (h : HoistId) (k : HoistConfig) (l : LandingId) (q : TransferRequest), (s.hoist h).state = .ready →
      (s.hoist h).config = some k → s.dockingLanding k.compartment (s.hoist h).depth = some l →
      (s.transferAt h k l q).1.Handed none := by
    intro h k l q ready config docks
    obtain ⟨rec, record, serves⟩ := State.dockingLanding_serves docks
    unfold State.transferAt
    dsimp only
    refine x.check fun _ => x.check fun survey => x.check fun full => x.check fun _ => x.check fun _ => x.check fun _ => ?_
    rw [not_or, not_le, Bool.not_eq_true, List.any_eq_false] at full
    have idle : ¬(s.hoist h).state.handsOver := by
      rw [ready]
      exact HoistState.not_handsOver nofun nofun
    have queued := (x.due l).queued (v := s.openedHandover h l q) idle config record serves (Bool.eq_false_iff.2 survey)
      full.1 (fun w inside => Bool.eq_false_iff.2 (full.2 w inside)) rfl rfl
    unfold State.acceptWith
    rw [State.openTransfer_eq ready rfl]
    split
    · exact queued.arbiter
    · rename_i taken
      refine State.Handed.spared (queued.done (.of_taken ?_)) (.markWaited _ l h)
      rw [State.setLanding_landing_self]
      exact taken
  unfold State.transfer
  split
  · split
    · refine x.check fun _ => ?_
      unfold State.transferTo
      split
      · exact x
      · rename_i config
        refine x.check fun _ => x.check fun ready => ?_
        split
        · exact x
        · rename_i docks
          exact x.check fun _ => opened _ _ _ _ (not_not.1 ready) config docks
    · exact x
  · exact x

/-! ### RESET_HOIST -/

/-- A tripped hoist with no open handover is reset (R54). -/
theorem State.Handed.resetHoist {s : State} (x : s.Handed none) (b : Byte) : (s.resetHoist b).1.Handed none := by
  unfold State.resetHoist
  split
  · exact x
  · rename_i h _
    refine x.check fun _ => x.check fun _ => x.check fun none_ => x.check fun _ => ?_
    rw [Option.not_isSome_iff_eq_none] at none_
    have run : (s.resetState h).Spares ((s.resetState h).runToSpan h) := .setRun _ h _ _
    have parked : (s.resetState h).Handed none := by
      refine x.kept (fun _ => .same _) (fun y docked => ?_) (fun l v inside => ?_) fun _ _ _ _ c _ held => ?_
      · by_cases e : y = h
        · subst e
          rw [State.hoist_resetState_self] at docked
          cases docked
        · rwa [State.hoist_resetState_other _ e] at docked
      · have ne : v.hoist ≠ h := fun e => State.openHandover_none none_ l (e ▸ List.mem_map_of_mem inside)
        rw [State.hoist_resetState_other _ ne]
        exact .same _
      · rwa [State.resetState, State.comp_setHoist]
    have placed := parked.spared run
    rwa [← State.reset_enter] at placed

/-! ### Landings written and removed -/

theorem State.Spares.emptyTable_if (s : State) (c : Compartment) (p : Prop) [Decidable p] :
    s.Spares (if p then s.emptyTable c else s) := by
  split
  · exact modTables s c _ rfl
  · exact same s

theorem State.Spares.emptyTables (s : State) (chosen : Compartment → Bool) : s.Spares (s.emptyTables chosen) :=
  (emptyTable_if s .a _).andThen (emptyTable_if _ .b _)

/-- A landing none of whose compartments is supervised has no handover and no survey (R37). -/
theorem State.Handed.unmanned {s : State} (x : s.Handed none) (follows : s.Following) {l : LandingId}
    (out : s.recordSupervised l = false) : (s.landing l).queue = [] ∧ (s.landing l).survey = false := by
  have sound := x.landing l
  have served : ∀ rec c, (s.landing l).record = some rec → rec.serves c = true → s.supervised c = false := by
    intro rec c record serves
    unfold State.recordSupervised State.servesSupervised at out
    rw [record] at out
    dsimp only at out
    rw [Bool.or_eq_false_iff, Bool.and_eq_false_imp, Bool.and_eq_false_imp] at out
    cases c
    · exact out.1 serves
    · exact out.2 serves
  constructor
  · refine List.eq_nil_iff_forall_not_mem.2 fun v inside => ?_
    obtain ⟨state, -, -, -, rec, k, record, config, serves⟩ := sound.each v inside
    have low := follows.out (Hoist.inCompartment_iff.2 ⟨k, config, rfl⟩) (served rec _ record serves)
    exact HoistState.not_handsOver_of_out low state
  · refine Bool.eq_false_iff.2 fun on => ?_
    obtain ⟨-, rec, record, supervised⟩ := sound.surveyed on
    have clash : ∀ c, rec.serves c = true → False := fun c serves => by
      have low := served rec c record serves
      rw [State.supervised_iff.2 (supervised c serves)] at low
      cases low
    exact (sound.serves rec record).elim (clash .a) (clash .b)

theorem State.Handed.landingRemove {s : State} (x : s.Handed none) (follows : s.Following) (b : Byte) :
    (s.landingRemove b).1.Handed none := by
  unfold State.landingRemove
  split
  · exact x
  · rename_i l _
    refine x.check fun out => x.check fun _ => x.check fun _ => ?_
    have empty := (x.unmanned follows (Bool.eq_false_iff.2 out)).1
    have removed : (s.setLanding l .initial).Handed none :=
      ((x.due l).vacated (y := .initial) empty rfl rfl rfl rfl nofun).done (.of_empty (by rw [State.setLanding_landing_self]; rfl))
    exact removed.spared ((State.Spares.emptyTable_if _ .a _).andThen (.emptyTable_if _ .b _))

theorem State.Handed.landingWrite {s : State} (x : s.Handed none) (follows : s.Following) (b : Byte) (sill slots : Nat)
    (mode served : Byte) (station : Nat) : (s.landingWrite b sill slots mode served station).1.Handed none := by
  unfold State.landingWrite
  split
  · exact x
  · rename_i l _
    split
    · exact x
    · refine x.check fun range => x.check fun out => x.check fun _ => x.check fun _ => ?_
      rw [not_or, Bool.not_eq_true] at out
      obtain ⟨empty, survey⟩ := x.unmanned follows out.1
      obtain ⟨-, timer⟩ := (x.landing l).survey
      rw [survey, Option.isSome_eq_false_iff, Option.isNone_iff_eq_none] at timer
      rw [Bool.not_eq_false, State.landingRange] at range
      simp only [Bool.and_eq_true, Bool.or_eq_true] at range
      have written : ∀ rec : LandingRec, rec.servesA = true ∨ rec.servesB = true → (s.withRecord l rec).Handed none :=
        fun rec serves => ((x.due l).vacated (y := { s.landing l with record := some rec, shuttle := .unknown, holder := .none })
          empty empty rfl survey timer fun rec' e => Option.some.inj e ▸ serves).done
            (.of_empty (by rw [State.setLanding_landing_self]; exact empty))
      unfold State.accept
      rw [State.defineLanding_eq]
      exact (written _ range.1.2).spared (.emptyTables _ _)

/-! ### RELEASE_SCOPE -/

/-- A compartment is released with its hoists PARKED and nothing at the landings that serve it (R146). -/
theorem State.Handed.releaseScope {s : State} (x : s.Handed none) (b : Byte) : (s.releaseScope b).1.Handed none := by
  unfold State.releaseScope
  split
  · exact x
  · rename_i c _
    refine x.check fun _ => x.check fun parked => x.check fun quiet => ?_
    rw [Bool.not_eq_false] at parked
    have parked : ∀ h, (s.hoist h).inCompartment c = true → (s.hoist h).state = .parked := State.allParked_iff.1 parked
    rw [Bool.not_eq_true] at quiet
    have quiet := State.anyServing_busy.1 quiet
    unfold State.accept
    rw [State.releaseAll_eq]
    have spared : ∀ h, (s.hoist h).Spared ((s.releasedScope c).hoist h) := by
      intro h
      rw [State.hoist_releasedScope]
      split
      · exact .of_idle (by rw [parked h ‹_›]; rintro (e | e) <;> cases e) nofun
      · exact .same _
    have landing : ∀ l, (s.releasedScope c).landing l = s.landing l := fun l => by cases c <;> rfl
    refine x.kept (fun l => landing l ▸ .same _) (fun h => (spared h).state.1) (fun _ v _ => (spared v.hoist).stays)
      fun l on rec record d serves held => ?_
    have ne : d ≠ c := by
      rintro rfl
      rw [(quiet l rec record serves).2] at on
      cases on
    have comp : (s.releasedScope c).comp d = s.comp d := by
      unfold State.releasedScope State.setScope State.modComp
      rw [State.comp_mapHoists, State.comp_setComp, if_neg ne]
    rwa [comp]

end Sys2Proof.Machine
end

section
/-! ## O10: every step keeps the handovers, the holders and the surveys -/

namespace Sys2Proof.Machine

/-- A change that keeps the handovers and the surveys. -/
def State.Hands (s t : State) : Prop := s.Handed none → t.Handed none

theorem State.Spares.hands {s t : State} (a : s.Spares t) : s.Hands t := fun x => x.spared a

namespace State.Hands

theorem same (s : State) : s.Hands s := id

theorem andThen {s t u : State} (a : s.Hands t) (b : t.Hands u) : s.Hands u := fun x => b (a x)

/-! ### The starts -/

theorem started (s : State) {t : State} (bare : t.Bare) (landings : ∀ l, t.landing l = .initial) : s.Hands t := by
  intro _
  refine ⟨fun l => .of_empty ?_ ?_ ?_ ?_ ?_, fun l m _ v inside => ?_, fun h docked => ?_, fun l _ => .of_empty ?_⟩
  · rw [landings]
    rfl
  · rw [landings]
    exact fun _ => nofun
  · rw [landings]
    exact ⟨⟨nofun, nofun⟩, rfl⟩
  · rw [landings]
    exact nofun
  · rw [landings]
    exact nofun
  · rw [landings] at inside
    cases inside
  · rw [bare] at docked
    cases docked
  · rw [landings]
    rfl

/-- The part at its power-on values. -/
theorem powerOn (s : State) {t : State} {straps : Straps} (hoists : t.hoists = (State.powerOnWith straps).hoists)
    (landings : t.landings = (State.powerOnWith straps).landings) : s.Hands t := by
  refine started s (State.bare_of_hoists hoists) fun l => ?_
  unfold State.landing
  rw [landings]
  simp [State.powerOnWith]

/-! ### The shared form -/

theorem event {s t : State} {f : State → State} (k : s.Hands (f s)) (e : Machine.event s f = .next t) : s.Hands t := by
  cases held : s.resetInput with
  | true =>
    rw [event_held s f held] at e
    cases e
    exact same s
  | false =>
    rw [event_free s f held] at e
    cases e
    exact k

theorem order {s t : State} {o : OrderHead} {code : Byte} {body : State → State × Reply}
    (k : (s.received .uplink).Hands (body (s.received .uplink)).1) (e : Machine.order s o code body = .next t) :
    s.Hands t := by
  refine event (f := fun s => s.takeOrder o code body) ?_ e
  have received := (Spares.received s .uplink).hands
  unfold State.takeOrder
  dsimp only
  split
  · exact (received.andThen k).andThen (Spares.give _ _ _).hands
  · exact received.andThen (Spares.dropOrder _ o).hands

/-- An order that opens and closes no handover in any state. -/
theorem anyOrder {s t : State} {o : OrderHead} {code : Byte} {body : State → State × Reply}
    (k : ∀ s : State, s.Spares (body s).1) (e : Machine.order s o code body = .next t) : s.Hands t := order (k _).hands e

/-! ### Events -/

section Events

variable {s t : State}

theorem partialFrameDiscard {p : Port} (e : execPartialFrameDiscard p s = .next t) : s.Hands t := by
  refine event (Spares.andThen (t := s.receiving p) ?_ (Spares.indicate _ _)).hands e
  cases p <;> exact .rest rfl rfl rfl rfl

theorem frameDropped {p : Port} {f : Frame} (e : execFrameDropped p f s = .next t) : s.Hands t := by
  refine event ?_ e
  split
  · exact ((Spares.received s p).andThen (.indicate _ _)).hands
  · exact same s
  · exact same s

theorem framePassThrough {p : Port} {f : Frame} (e : execFramePassThrough p f s = .next t) : s.Hands t := by
  refine event ?_ e
  split
  · exact ((Spares.received s p).andThen (.give _ _ _)).hands
  · exact same s
  · exact same s

theorem demand {a m : Byte} {v : Half} (e : execDemand a m v s = .next t) : s.Hands t := by
  refine event ((Spares.received s .uplink).andThen ?_).hands e
  dsimp only
  split
  · exact .indicate _ _
  · split
    · exact .takeDemand _ _ _
    · exact .indicate _ _

theorem report {a : Byte} {w : ReportWire} (e : execReport a w s = .next t) : s.Hands t := by
  refine event ((Spares.received s .field).andThen ?_).hands e
  dsimp only
  split
  · exact .indicate _ _
  · split
    · exact (Spares.reportPath _ _ _).andThen (.give _ _ _)
    · exact .give _ _ _

theorem shuttleReport {a : Byte} {w : ShuttleWire} (e : execShuttleReport a w s = .next t) : s.Hands t := by
  refine event ((Spares.received s .field).hands.andThen ?_) e
  dsimp only
  split
  · exact (Spares.indicate _ _).hands
  · split
    · exact (Spares.indicate _ _).hands
    · exact fun x => (x.shuttlePath a w).spared (.give _ _ _)

theorem handoverTimerExpiry {h : HoistId} (e : execHandoverTimerExpiry h s = .next t) : s.Hands t := by
  refine event (fun x => ?_) e
  split
  · rename_i l v found
    exact x.spared (.expiry s _ _ (.handoverTimeout ((x.landing l).granted (State.openHandover_some found).1)))
  · exact x

theorem surveyTimerExpiry {l : LandingId} (e : execSurveyTimerExpiry l s = .next t) : s.Hands t := by
  refine event (fun x => ?_) e
  exact x.expiry _ _ fun runs => x.surveyFailure ((x.landing l).survey.2.symm.trans runs)

theorem reportAgeExpiry {h : HoistId} (e : execReportAgeExpiry h s = .next t) : s.Hands t := by
  refine event (Spares.hands ?_) e
  exact .expiry s _ _ (.lapse s h)

theorem demandAgeExpiry {h : HoistId} (e : execDemandAgeExpiry h s = .next t) : s.Hands t := by
  refine event (Spares.hands ?_) e
  split
  · exact .takeSecond s h
  · exact .expiry s _ _ ((((Spares.actOnStale s h).andThen (.latch _ _)).andThen (.superviseDemand _ h 0)).andThen
      (.restartDemandTimer _ h))

theorem engageTimeout {h : HoistId} (e : execEngageTimeout h s = .next t) : s.Hands t := by
  refine event (Spares.hands ?_) e
  split
  · rename_i from_
    exact .expiry s _ _ ((Spares.enterFrom (b := .parked) from_ nofun nofun nofun).andThen (.latch _ _))
  · exact .same s

theorem parkTimeout {h : HoistId} (e : execParkTimeout h s = .next t) : s.Hands t := by
  refine event (Spares.hands ?_) e
  split
  · exact .takeSecond s h
  · split
    · exact .expiry s _ _ (.trip s h .parkFail)
    · exact .same s

theorem proofTimerExpiry {h : HoistId} (e : execProofTimerExpiry h s = .next t) : s.Hands t := by
  refine event (Spares.hands ?_) e
  split
  · rename_i from_
    exact .expiry s _ _ ((Spares.enterFrom (b := .parked) from_ nofun nofun nofun).andThen (.latch _ _))
  · exact .same s

theorem secondTick (e : execSecondTick s = .next t) : s.Hands t := by
  have counted : s.Spares { s with
    seconds := nextSeconds s.seconds, now := max s.now s.nextSecond, nextSecond := s.nextSecond + 1000 } :=
    .rest rfl rfl rfl rfl
  refine event (Spares.hands ?_) e
  exact counted.andThen (.evaluateAll _)

theorem unknownOrder {o : OrderHead} {code : Byte} {ps : List Byte} (e : execUnknownOrder o code ps s = .next t) :
    s.Hands t := by
  refine event (Spares.hands ?_) e
  split
  · refine (Spares.received s .uplink).andThen ?_
    dsimp only
    split
    · exact (Spares.indicate _ _).andThen (.give _ _ _)
    · exact .dropOrder _ o
  · exact .same s

theorem orderDropped {o : OrderHead} {code : Byte} {ps : List Byte} (e : execOrderDropped o code ps s = .next t) :
    s.Hands t := by
  refine event (Spares.hands ?_) e
  split
  · exact .same s
  · exact (Spares.received s .uplink).andThen (.dropOrder _ o)

theorem allStop {o : OrderHead} (e : execAllStop o s = .next t) : s.Hands t := by
  unfold execAllStop at e
  split at e
  · exact event ((Spares.received s .uplink).andThen (.stopAll _ _)).hands e
  · exact anyOrder (fun s => .stopAll s _) e

theorem landingWriteOrder {o : OrderHead} {l : Byte} {d : Word} {n m x y : Byte} (follows : s.Following)
    (e : execLandingWrite o l d n m x y s = .next t) : s.Hands t := by
  refine order (fun sound => ?_) e
  split
  · exact sound.landingRemove follows.received l
  · exact sound.landingWrite follows.received _ _ _ _ _ _

theorem restart {o : OrderHead} {straps : Straps} (e : execRestart o straps s = .next t) : s.Hands t := by
  refine event ((Spares.received s .uplink).hands.andThen ?_) e
  dsimp only
  split
  · exact powerOn _ (straps := straps) rfl rfl
  · exact (Spares.dropOrder _ o).hands

theorem resetInputRelease {straps : Straps} (e : execResetInputRelease straps s = .next t) : s.Hands t := by
  cases e
  split
  · exact powerOn s (straps := straps) rfl rfl
  · exact same s

end Events

/-! ### Every command -/

theorem command (i : Instr) {s t : State} (follows : s.Following) (e : exec i s = .next t) : s.Hands t := by
  cases i with
  | powerOn x => cases e; exact powerOn s (straps := x) rfl rfl
  | resetInputAssert => cases e; exact powerOn s (straps := s.strapPins) rfl rfl
  | resetInputRelease x => exact resetInputRelease e
  | restart o x => exact restart e
  | partialFrameDiscard p => exact partialFrameDiscard e
  | frameDropped p f => exact frameDropped e
  | framePassThrough p f => exact framePassThrough e
  | demand a m v => exact demand (m := m) e
  | report a w => exact report e
  | shuttleReport a w => exact shuttleReport e
  | handoverTimerExpiry h => exact handoverTimerExpiry e
  | surveyTimerExpiry l => exact surveyTimerExpiry e
  | reportAgeExpiry h => exact reportAgeExpiry e
  | demandAgeExpiry h => exact demandAgeExpiry e
  | engageTimeout h => exact engageTimeout e
  | parkTimeout h => exact parkTimeout e
  | proofTimerExpiry h => exact proofTimerExpiry e
  | secondTick => exact secondTick e
  | unknownOrder o c ps => exact unknownOrder e
  | orderDropped o c ps => exact orderDropped e
  | shaftWrite o => exact anyOrder (fun s => .shaftWrite s _ _ _ _) e
  | zoneWriteEntry o => exact anyOrder (fun s => .zoneWriteEntry s _ _ _ _ _ _) e
  | zoneWriteCount o => exact anyOrder (fun s => .zoneWriteCount s _ _) e
  | zoneCommit o => exact anyOrder (fun s => .zoneCommit s _) e
  | zoneQuery o => exact anyOrder (fun s => .zoneQuery s _ _ _) e
  | landingWrite o => exact landingWriteOrder follows e
  | landingRemove o => exact order (fun x => x.landingRemove follows.received _) e
  | hoistConfig o => exact order (Spares.hoistConfig _ follows.received _ _).hands e
  | hoistQuery o => exact anyOrder (fun s => .hoistQuery s _) e
  | engage o => exact anyOrder (fun s => .engage s _) e
  | park o => exact anyOrder (fun s => .park s _) e
  | move o => exact anyOrder (fun s => .move s _ _ _) e
  | abort o => exact anyOrder (fun s => .abort s _) e
  | resetHoist o => exact order (fun x => x.resetHoist _) e
  | ceiling o => exact anyOrder (fun s => .ceiling s _ _) e
  | groupWrite o => exact anyOrder (fun s => .groupWrite s _ _) e
  | groupCeiling o => exact anyOrder (fun s => .groupCeiling s _ _) e
  | groupStop o => exact anyOrder (fun s => .groupStop s _) e
  | allStop o => exact allStop e
  | transfer o => exact order (fun x => x.transfer _ _ _ _) e
  | abortTransfer o => exact order (fun x => x.abortTransfer _) e
  | resolve o => exact order (fun x => x.resolve _ _) e
  | blockSlot o => exact anyOrder (fun s => .blockSlot s _ _) e
  | unblockSlot o => exact anyOrder (fun s => .unblockSlot s _ _) e
  | landingQuery o => exact anyOrder (fun s => .landingQuery s _) e
  | declareMass o => exact anyOrder (fun s => .declareMass s _ _ _ _ _) e
  | removeMass o => exact anyOrder (fun s => .removeMass s _) e
  | verify o => exact order (fun x => x.verify _) e
  | releaseScope o => exact order (fun x => x.releaseScope _) e
  | admitScope o => exact order (Spares.admitScope _ follows.received _).hands e
  | massQuery o => exact anyOrder (fun s => .massQuery s _) e
  | tallyQuery o => exact anyOrder (fun s => .same s) e
  | prove o => exact anyOrder (fun s => .prove s _) e
  | proofWrite o => exact anyOrder (fun s => .proofWrite s _ _) e
  | maskWrite o => exact anyOrder (fun s => .maskWrite s _) e
  | scopeOptions o => exact anyOrder (fun s => .scopeOptions s _ _ _) e
  | status o => exact anyOrder (fun s => .status s) e
  | readRecord o => exact anyOrder (fun s => .readRecord s) e
  | logControl o => exact anyOrder (fun s => .logControl s _) e
  | timerWrite o => exact anyOrder (fun s => .timerWrite s _) e

end State.Hands

theorem step_hands {s t : State} (follows : s.Following) (e : step s = .next t) : s.Hands t := by
  unfold step at e
  split at e
  · cases e
    refine State.Spares.hands ?_
    unfold State.tick
    split
    · exact .same s
    · exact .rest rfl rfl rfl rfl
  · rename_i i rest _
    have taken : s.Spares { s with pending := rest } := .rest rfl rfl rfl rfl
    exact taken.hands.andThen (State.Hands.command i (s := { s with pending := rest }) follows e)

/-- Settles O10: every command keeps the handovers landing by landing, and leaves the arbiter due nowhere. -/
theorem handoversKeptByEveryStep : Obligations.HandoversKeptByEveryStep := by
  intro s t follows sound e
  rw [State.handoversSound_iff] at sound ⊢
  exact step_hands follows e sound

end Sys2Proof.Machine
end

section
/-! ## O47: BLOCK_SLOT and UNBLOCK_SLOT -/

namespace Sys2Proof.Machine

theorem State.definedLanding_eq {s : State} {b : Byte} {l : LandingId} {rec : LandingRec} (number : b.toNat = l.val + 1)
    (record : (s.landing l).record = some rec) : s.definedLanding b = some (l, rec) := by
  unfold State.definedLanding
  rw [show landingOf b = some l from numbered_eq_some number]
  dsimp only
  rw [record]

theorem State.definedLanding_none {s : State} {b : Byte}
    (none_ : ∀ l : LandingId, b.toNat = l.val + 1 → (s.landing l).record = none) : s.definedLanding b = none := by
  unfold State.definedLanding
  split
  · rename_i l found
    unfold landingOf numbered at found
    split at found
    · cases found
      rw [none_ _ (by dsimp only; omega)]
    · cases found
  · rfl

theorem Landing.slotInHandover_iff {x : Landing} {i : Nat} :
    x.slotInHandover i = true ↔ ∃ v ∈ x.queue, v.slot = some i := by
  unfold Landing.slotInHandover
  rw [List.any_eq_true]
  simp only [beq_iff_eq]

/-- A slot of a defined landing is written. -/
theorem State.setSlot_eq {s : State} {l : LandingId} {rec : LandingRec} (record : (s.landing l).record = some rec) (i : Nat)
    (st : SlotState) : s.setSlot l i st =
      s.setLanding l { s.landing l with record := some { rec with slots := rec.slots.set i st } } := by
  unfold State.setSlot State.modRecord State.modLanding
  dsimp only
  rw [record]
  rfl

section

variable {s : State} {l : LandingId} {i : Nat}

theorem State.blockSlotAt_empty (e : s.slotAt l i = .empty) : s.blockSlotAt l i = s.setSlot l i (.blocked none) := by
  unfold State.blockSlotAt
  rw [e]

theorem State.blockSlotAt_occupied {m : MassId} (e : s.slotAt l i = .occupied m) :
    s.blockSlotAt l i = (s.setSlot l i (.blocked (some m))).setStatus m (.uncertain (some (.slot l i))) := by
  unfold State.blockSlotAt
  rw [e]

theorem State.blockSlotAt_expecting {x : Option MassId} (e : s.slotAt l i = .unverified x ∨ s.slotAt l i = .blocked x) :
    s.blockSlotAt l i = s.setSlot l i (.blocked x) := by
  unfold State.blockSlotAt
  rcases e with e | e <;> rw [e]

variable {b : Byte} {rec : LandingRec}

section Undefined

variable (none_ : s.definedLanding b = none)

include none_

theorem State.blockSlot_none : s.blockSlot b i = s.refuse .target := by
  unfold State.blockSlot
  rw [none_]

theorem State.unblockSlot_none : s.unblockSlot b i = s.refuse .target := by
  unfold State.unblockSlot
  rw [none_]

end Undefined

variable (found : s.definedLanding b = some (l, rec))

include found

section Beyond

variable (beyond : rec.slots.length ≤ i)

include beyond

theorem State.blockSlot_range : s.blockSlot b i = s.refuse .range := by
  unfold State.blockSlot
  rw [found]
  exact if_pos beyond

theorem State.unblockSlot_range : s.unblockSlot b i = s.refuse .range := by
  unfold State.unblockSlot
  rw [found]
  exact if_pos beyond

end Beyond

variable (within : i < rec.slots.length)

include within

section Surveyed

variable (survey : (s.landing l).survey = true)

include survey

theorem State.blockSlot_busy : s.blockSlot b i = s.refuse .busy := by
  unfold State.blockSlot
  rw [found]
  dsimp only
  rw [if_neg (Nat.not_le.2 within), if_pos survey]

theorem State.unblockSlot_busy : s.unblockSlot b i = s.refuse .busy := by
  unfold State.unblockSlot
  rw [found]
  dsimp only
  rw [if_neg (Nat.not_le.2 within), if_pos survey]

end Surveyed

variable (quiet : (s.landing l).survey = false)

include quiet

theorem State.blockSlot_refused (used : (s.slotAt l i).isReserved = true ∨ (s.landing l).slotInHandover i = true) :
    s.blockSlot b i = s.refuse .state := by
  unfold State.blockSlot
  rw [found]
  dsimp only
  rw [if_neg (Nat.not_le.2 within), if_neg (Bool.eq_false_iff.1 quiet), if_pos used]

theorem State.blockSlot_accepted (unreserved : (s.slotAt l i).isReserved = false)
    (free : (s.landing l).slotInHandover i = false) : s.blockSlot b i = (s.blockSlotAt l i).accept := by
  unfold State.blockSlot
  rw [found]
  dsimp only
  rw [if_neg (Nat.not_le.2 within), if_neg (Bool.eq_false_iff.1 quiet), unreserved, free,
    if_neg (not_or.2 ⟨nofun, nofun⟩)]

theorem State.unblockSlot_unblocked (not_blocked : ∀ x, s.slotAt l i ≠ .blocked x) :
    s.unblockSlot b i = s.refuse .state := by
  unfold State.unblockSlot
  rw [found]
  dsimp only
  rw [if_neg (Nat.not_le.2 within), if_neg (Bool.eq_false_iff.1 quiet)]
  split
  · exact absurd ‹_› (not_blocked _)
  all_goals rfl

theorem State.unblockSlot_blocked {x : Option MassId} (blocked : s.slotAt l i = .blocked x) :
    s.unblockSlot b i = if (s.landing l).slotInHandover i = true then s.refuse .state
      else (s.setSlot l i (.unverified x)).accept := by
  unfold State.unblockSlot
  rw [found]
  dsimp only
  rw [if_neg (Nat.not_le.2 within), if_neg (Bool.eq_false_iff.1 quiet), blocked]

theorem State.unblockSlot_used (used : (s.landing l).slotInHandover i = true) : s.unblockSlot b i = s.refuse .state := by
  by_cases blocked : ∃ x, s.slotAt l i = .blocked x
  · obtain ⟨x, blocked⟩ := blocked
    rw [State.unblockSlot_blocked found within quiet blocked, if_pos used]
  · exact State.unblockSlot_unblocked found within quiet (not_exists.1 blocked)

end

/-- Settles O47, check by check and slot state by slot state. -/
theorem blockAndUnblockSlot : Obligations.BlockAndUnblockSlot := by
  intro o b i s takes
  refine ⟨fun none_ => ?_, fun l rec number record => ?_⟩
  · have none_ : (s.received .uplink).definedLanding b = none := State.definedLanding_none none_
    exact ⟨order_answered takes (State.blockSlot_none none_), order_answered takes (State.unblockSlot_none none_)⟩
  have found : (s.received .uplink).definedLanding b = some (l, rec) := State.definedLanding_eq number record
  refine ⟨fun beyond => ?_, fun within survey => ?_, fun quiet st held => ?_⟩
  · exact ⟨order_answered takes (State.blockSlot_range found beyond),
      order_answered takes (State.unblockSlot_range found beyond)⟩
  · exact ⟨order_answered takes (State.blockSlot_busy found within survey),
      order_answered takes (State.unblockSlot_busy found within survey)⟩
  obtain ⟨within, -⟩ := List.getElem?_eq_some_iff.1 held
  have slot : (s.received .uplink).slotAt l i.toNat = st := by
    rw [State.slotAt_eq (s := s.received .uplink) record, held, Option.getD_some]
  have put : ∀ x, (s.received .uplink).setSlot l i.toNat x =
      (s.withLanding l { s.landing l with record := some { rec with slots := rec.slots.set i.toNat x } }).received .uplink :=
    State.setSlot_eq (s := s.received .uplink) record _
  refine ⟨fun used => ?_, ?_, fun other => ?_, fun free => ?_⟩
  · have used := (Landing.slotInHandover_iff (x := (s.received .uplink).landing l)).2 used
    exact ⟨order_answered takes (State.blockSlot_refused found within quiet (.inr used)),
      order_answered takes (State.unblockSlot_used found within quiet used)⟩
  · rintro m rfl
    exact order_answered takes (State.blockSlot_refused found within quiet (.inl (by rw [slot]; rfl)))
  · exact order_answered takes (State.unblockSlot_unblocked found within quiet (by rwa [slot]))
  have free : ((s.received .uplink).landing l).slotInHandover i.toNat = false :=
    Bool.eq_false_iff.2 fun used => free (Landing.slotInHandover_iff.1 used)
  refine ⟨?_, ?_, fun x expecting => ?_, ?_⟩
  · rintro rfl
    refine order_answered takes ((State.blockSlot_accepted found within quiet (by rw [slot]; rfl) free).trans ?_)
    rw [State.blockSlotAt_empty slot, put]
    rfl
  · rintro m rfl
    refine order_answered takes ((State.blockSlot_accepted found within quiet (by rw [slot]; rfl) free).trans ?_)
    rw [State.blockSlotAt_occupied slot, put]
    rfl
  · have unreserved : st.isReserved = false := by rcases expecting with rfl | rfl <;> rfl
    refine order_answered takes ((State.blockSlot_accepted found within quiet (by rw [slot, unreserved]) free).trans ?_)
    rw [State.blockSlotAt_expecting (by rwa [slot]), put]
    rfl
  · rintro x rfl
    refine order_answered takes ((State.unblockSlot_blocked found within quiet slot).trans ?_)
    rw [free, if_neg Bool.false_ne_true, put]
    rfl

end Sys2Proof.Machine
end

section
/-! ## A handover's phases as written states -/

namespace Sys2Proof.Machine

/-! ### One hoist's handover changed -/

/-- A queue in which one hoist's handover is changed. -/
abbrev changeOf (h : HoistId) (f : Handover → Handover) (q : List Handover) : List Handover :=
  q.map fun x => if x.hoist = h then f x else x

theorem changeOf_changeOf (h : HoistId) {f g : Handover → Handover} (same : ∀ x, (f x).hoist = x.hoist)
    (q : List Handover) : changeOf h g (changeOf h f q) = changeOf h (fun x => g (f x)) q := by
  unfold changeOf
  rw [List.map_map]
  refine List.map_congr_left fun x _ => ?_
  rw [Function.comp_apply]
  by_cases e : x.hoist = h
  · rw [if_pos e, if_pos ((same x).trans e), if_pos e]
  · rw [if_neg e, if_neg e, if_neg e]

/-- A handover as UNLATCH leaves it (R129). -/
def Handover.letGo (s : State) (x : Handover) : Handover :=
  { x with phase := .unlatching, timer := some (s.now + 1000 * s.timers.latchLimit) }

/-- A handover whose outcome is fixed (R125). -/
def Handover.settledAs (o : HandoverOutcome) (x : Handover) : Handover := { x with outcome := some o, settled := true }

/-- A handover stuck (R134, R135). -/
def Handover.stuck (x : Handover) : Handover := { x with phase := .stuck, timer := none }

/-- The UNLATCH of a handover, and the other requests (R127). -/
def requestFrame (rec : LandingRec) (k : HoistConfig) (code i : Nat) : Port × Frame :=
  (.field, makeFrame (byte rec.station) kindShuttleReq [byte code, if k.compartment = .a then 0 else 1, byte i])

/-! ### The operations -/

theorem State.setLanding_setHoist (s : State) (h : HoistId) (r : Hoist) (l : LandingId) (x : Landing) :
    (s.setHoist h r).setLanding l x = (s.setLanding l x).setHoist h r := rfl

theorem State.setLanding_setMass (s : State) (m : MassId) (r : Mass) (l : LandingId) (x : Landing) :
    (s.setMass m r).setLanding l x = (s.setLanding l x).setMass m r := rfl

section

variable {s : State} {l : LandingId} {v : Handover} {rec : LandingRec} {k : HoistConfig} {i : Nat} {m : MassId}

theorem State.modHandover_eq (s : State) (l : LandingId) (h : HoistId) (f : Handover → Handover) :
    s.modHandover l h f = s.setLanding l { s.landing l with queue := changeOf h f (s.landing l).queue } := rfl

theorem State.toStuck_eq (s : State) (l : LandingId) (h : HoistId) :
    s.toStuck l h =
      (s.setLanding l { s.landing l with queue := changeOf h Handover.stuck (s.landing l).queue }).latchedBit 4 := rfl

variable (config : (s.hoist v.hoist).config = some k) (slot : v.slot = some i)

section Requests

variable (record : (s.landing l).record = some rec)

include record config slot

theorem State.requestFor_eq (q : ShuttleRequest) :
    s.requestFor l v q = { s with outbox := s.outbox ++ [requestFrame rec k q.code i] } := by
  unfold State.requestFor State.request Landing.stationByte Hoist.side requestFrame
  rw [record, config, slot, compartmentByte_eq]
  rfl

theorem State.toUnlatching_eq :
    s.toUnlatching l v =
      { s.setLanding l { s.landing l with queue := changeOf v.hoist (.letGo s) (s.landing l).queue } with
        outbox := s.outbox ++ [requestFrame rec k 4 i] } := by
  unfold State.toUnlatching
  rw [State.modHandover_eq]
  exact State.requestFor_eq (s := s.setLanding l _) config slot (by rw [State.setLanding_landing_self]; exact record) .unlatch

theorem State.toTransferring_eq :
    s.toTransferring l v =
      { s.setLanding l { s.landing l with
          queue := changeOf v.hoist (fun x => { x with
            phase := .transferring, timer := some (s.now + 1000 * s.timers.transferLimit) }) (s.landing l).queue } with
        outbox := s.outbox ++ [requestFrame rec k (if v.kind = .deposit then 2 else 3) i] } := by
  unfold State.toTransferring
  rw [State.modHandover_eq, State.requestFor_eq (s := s.setLanding l _) (rec := rec) config slot]
  · cases v.kind <;> rfl
  · rw [State.setLanding_landing_self]
    exact record

/-- Settled, and UNLATCH asked for (R129, R132, R133, R136). -/
theorem State.settle_toUnlatching (o : HandoverOutcome) :
    (s.settle l v.hoist o).toUnlatching l v =
      { s.setLanding l { s.landing l with
          queue := changeOf v.hoist (fun x => (x.settledAs o).letGo s) (s.landing l).queue } with
        outbox := s.outbox ++ [requestFrame rec k 4 i] } := by
  have settled : s.settle l v.hoist o =
    s.setLanding l { s.landing l with queue := changeOf v.hoist (.settledAs o) (s.landing l).queue } := rfl
  rw [settled, State.toUnlatching_eq (s := s.setLanding l _) (rec := rec) config slot
      (by rw [State.setLanding_landing_self]; exact record),
    State.setLanding_landing_self, State.setLanding_setLanding]
  rw [← changeOf_changeOf v.hoist (f := .settledAs o) (g := .letGo s) fun _ => rfl]
  rfl

end Requests

variable (mass : v.mass = some m) (record : (s.landing l).record = some rec)

include record config slot mass

/-- What ends a handover before the shuttle has latched (R132, R133). -/
theorem State.undoLatch_eq (o : HandoverOutcome) :
    s.undoLatch l v o =
      { s.setLanding l { s.landing l with
          record := some { rec with slots := rec.slots.set i (if v.kind = .deposit then .empty else .occupied m) }
          queue := changeOf v.hoist (fun x => (x.settledAs o).letGo s) (s.landing l).queue } with
        outbox := s.outbox ++ [requestFrame rec k 4 i] } := by
  have reverted : s.revertSlot l v = s.setLanding l { s.landing l with
      record := some { rec with slots := rec.slots.set i (if v.kind = .deposit then .empty else .occupied m) } } := by
    rw [← State.setSlot_eq record]
    unfold State.revertSlot
    rw [slot, mass]
    cases v.kind <;> rfl
  unfold State.undoLatch
  rw [reverted, State.settle_toUnlatching (s := s.setLanding l _) config slot (by rw [State.setLanding_landing_self]),
    State.setLanding_landing_self, State.setLanding_setLanding]
  rfl

theorem State.latchFailure_eq :
    s.latchFailure l v =
      { (s.setLanding l { s.landing l with
          record := some { rec with slots := rec.slots.set i (if v.kind = .deposit then .empty else .occupied m) }
          queue := changeOf v.hoist (fun x => (x.settledAs .failed).letGo s) (s.landing l).queue }).latchedBit 4 with
        outbox := s.outbox ++ [requestFrame rec k 4 i] } := by
  unfold State.latchFailure
  rw [State.undoLatch_eq config slot mass record]
  rfl

omit config in
theorem State.transferFailure_eq :
    s.transferFailure l v =
      (((s.setLanding l { s.landing l with
          record := some { rec with slots := rec.slots.set i (.blocked (some m)) }
          queue := changeOf v.hoist Handover.stuck (s.landing l).queue }).setHoist v.hoist
            { s.hoist v.hoist with carried := .unknownLoad }).setMass m
              { s.mass m with status := .uncertain (some (.slot l i)) }).latchedBit 4 := by
  unfold State.transferFailure
  rw [slot, mass]
  dsimp only
  rw [State.setSlot_eq (rec := rec) (by exact record), State.toStuck_eq]
  unfold State.setCarried
  rw [State.landing_modHoist, State.setLanding_landing_self]
  dsimp only
  change State.latchedBit (State.setMass (State.setHoist ((s.setLanding l _).setLanding l _) v.hoist _) m _) 4 = _
  rw [State.setLanding_setLanding]
  rfl

end

/-! ### A SHUTTLE_REPORT for the handover that holds the shuttle -/

theorem State.openHandover_find {s : State} {h : HoistId} {l : LandingId} {v : Handover}
    (e : s.openHandover h = some (l, v)) : ((s.landing l).queue.find? fun x => x.hoist == h) = some v := by
  unfold State.openHandover at e
  obtain ⟨y, _, found⟩ := List.exists_of_findSome?_eq_some e
  split at found
  · cases found
    assumption
  · cases found

/-- The state in which a SHUTTLE_REPORT is handed on: the shuttle state is the one reported (R122). -/
def State.reportedBy (s : State) (l : LandingId) (st : ShuttleState) : State :=
  (s.received .field).setLanding l { s.landing l with shuttle := st }

theorem State.landing_reportedBy (s : State) (l : LandingId) (st : ShuttleState) :
    (s.reportedBy l st).landing l = { s.landing l with shuttle := st } := State.setLanding_landing_self ..

section

variable {a : Byte} {w : ShuttleWire} {s : State} {l : LandingId}

/-- A SHUTTLE_REPORT that reaches a landing is handed on and goes up last (R122, R178). -/
theorem shuttleReport_next (running : s.resetInput = false) (station : a ≠ 0) (few : w.survey.length ≤ 8)
    (at_ : s.shuttleAt a = some l) :
    exec (.shuttleReport a w) s =
      .next (((s.received .field).takeShuttleReport l w).give .uplink (makeFrame a kindShuttleReport (shuttleBytes w))) := by
  have reached : (s.received .field).shuttlePath a w = (s.received .field).takeShuttleReport l w := by
    unfold State.shuttlePath
    rw [show (s.received .field).shuttleAt a = some l from at_]
  change execShuttleReport a w s = _
  unfold execShuttleReport
  rw [event_free s _ running]
  dsimp only
  rw [if_neg station, if_neg (Nat.not_lt.2 few), reached]

/-- To the handover that holds the shuttle (R128 to R135). -/
theorem State.takeShuttleReport_handover {v : Handover} (holder : (s.landing l).holder = .handover v.hoist)
    (found : ((s.landing l).queue.find? fun x => x.hoist == v.hoist) = some v) :
    (s.received .field).takeShuttleReport l w =
      (s.reportedBy l (shuttleStateOf w.state)).reportToHandover l v (shuttleStateOf w.state) w.tag := by
  have taken : (s.received .field).modLanding l (fun x => { x with shuttle := shuttleStateOf w.state }) =
    s.reportedBy l (shuttleStateOf w.state) := rfl
  unfold State.takeShuttleReport
  dsimp only
  rw [taken, State.landing_reportedBy]
  dsimp only
  rw [holder]
  dsimp only
  rw [found]

/-- To the arbiter, with no holder (R126). -/
theorem State.takeShuttleReport_free (free : (s.landing l).holder = .none) :
    (s.received .field).takeShuttleReport l w = (s.reportedBy l (shuttleStateOf w.state)).arbiter l := by
  have taken : (s.received .field).modLanding l (fun x => { x with shuttle := shuttleStateOf w.state }) =
    s.reportedBy l (shuttleStateOf w.state) := rfl
  unfold State.takeShuttleReport
  dsimp only
  rw [taken, State.landing_reportedBy]
  dsimp only
  rw [free]

end

/-- Settles O23. -/
theorem latchedBeginsTransfer : Obligations.LatchedBeginsTransfer := by
  intro a w s l rec v k i running station few at_ record holder found config slot phase state
  have latched : shuttleStateOf w.state = .latched := by rw [state]; rfl
  have begun : (s.reportedBy l .latched).reportToHandover l v .latched w.tag =
      (s.reportedBy l .latched).toTransferring l v := by
    unfold State.reportToHandover
    rw [phase]
  rw [shuttleReport_next running station few at_, State.takeShuttleReport_handover holder found, latched, begun,
    State.toTransferring_eq (s := s.reportedBy l _) (rec := rec) (k := k) config slot (by rw [State.landing_reportedBy]; exact record),
    State.landing_reportedBy]
  unfold State.reportedBy
  rw [State.setLanding_setLanding]
  refine congrArg Host.Outcome.next ?_
  unfold State.give requestFrame
  dsimp only
  rw [List.append_assoc]
  cases v.kind <;> rfl

end Sys2Proof.Machine
end

section
/-! ## O25, O28, O45 and O46: a handover closed, failed, abandoned and resolved -/

namespace Sys2Proof.Machine

/-! ### A close (R131) -/

/-- A hoist as the close of its handover leaves it: a DOCKED one is READY again, any other keeps its state (R131). -/
structure Hoist.Closed (r r' : Hoist) : Prop where
  docked : r.state = .docked → r'.state = .ready ∧ r'.demandTimer = r.demandTimer
  other : r.state ≠ .docked → r' = { r with envDown := r'.envDown, envUp := r'.envUp }
  track : r.SameTrack r'
  move : r'.move = r.move
  run : r'.run = r.run

/-- A close writes its landing and its hoist alone. -/
theorem State.removeHandover_closes (s : State) (l : LandingId) (h : HoistId) :
    ∃ r', s.removeHandover l h = (s.setLanding l ((s.landing l).without h)).setHoist h r' ∧ (s.hoist h).Closed r' := by
  generalize without : s.setLanding l ((s.landing l).without h) = u
  have hoist : u.hoist h = s.hoist h := without ▸ State.hoist_setLanding ..
  by_cases docked : (s.hoist h).state = .docked
  · obtain ⟨down, up, e⟩ := u.hoist_enter_self h .ready
    rw [hoist] at e
    refine ⟨(u.enter h .ready).hoist h, ?_, ?_⟩
    · rw [State.removeHandover_eq, if_pos docked, without]
      exact u.enter_eq h .ready
    · rw [e]
      refine ⟨fun _ => ⟨rfl, ?_⟩, fun other => absurd docked other, by constructor <;> rfl, rfl, rfl⟩
      unfold Hoist.inState
      rw [docked]
      rfl
  · refine ⟨{ s.hoist h with envDown := u.envelope (s.hoist h) .down, envUp := u.envelope (s.hoist h) .up }, ?_, ?_⟩
    · rw [State.removeHandover_eq, if_neg docked, without, ← hoist]
      rfl
    · exact ⟨fun e => absurd e docked, fun _ => rfl, by constructor <;> rfl, rfl, rfl⟩

/-- A close after which nothing waits is the removal alone (R126, R131). -/
theorem State.closeHandover_eq {s : State} {l : LandingId} {h : HoistId}
    (nobody : ∀ x ∈ (s.landing l).queue, x.hoist ≠ h → x.phase ≠ .waiting) :
    s.closeHandover l h = s.removeHandover l h := by
  unfold State.closeHandover State.arbiter
  refine State.arbiterFor_nobody (List.filter_eq_nil_iff.2 fun x inside => ?_) _
  rw [State.landing_removeHandover, if_pos rfl, Landing.mem_without] at inside
  rw [beq_iff_eq]
  exact nobody x inside.1 inside.2

/-- Settles O25. -/
theorem idleClosesTheHandover : Obligations.IdleClosesTheHandover := by
  intro a w s l v running station few at_ holder found phase state nobody
  have idle : shuttleStateOf w.state = .idle := by rw [state]; rfl
  have begun : (s.reportedBy l .idle).reportToHandover l v .idle w.tag =
      (s.reportedBy l .idle).closeHandover l v.hoist := by
    unfold State.reportToHandover
    rw [phase]
  obtain ⟨r', closed, docked, other, track, move, run⟩ := (s.reportedBy l .idle).removeHandover_closes l v.hoist
  have here : (s.reportedBy l .idle).landing l = { s.landing l with shuttle := .idle } := s.landing_reportedBy l .idle
  have written : (s.reportedBy l .idle).closeHandover l v.hoist =
      ((s.received .field).setLanding l { s.landing l with
        shuttle := .idle
        holder := .none
        queue := (s.landing l).queue.filter fun x => x.hoist != v.hoist }).setHoist v.hoist r' := by
    rw [State.closeHandover_eq (by rw [here]; exact nobody), closed, here]
    unfold State.reportedBy Landing.without
    rw [State.setLanding_setLanding]
    dsimp only
    rw [holder, if_pos rfl]
  have self : ((s.reportedBy l .idle).closeHandover l v.hoist).hoist v.hoist = r' := by
    rw [written, State.setHoist_hoist_self]
  refine ⟨((s.reportedBy l .idle).closeHandover l v.hoist).give .uplink (makeFrame a kindShuttleReport (shuttleBytes w)),
    ?_, ?_⟩
  · rw [shuttleReport_next running station few at_, State.takeShuttleReport_handover holder found, idle, begun]
  · rw [State.hoist_give, self]
    refine ⟨fun e => (docked e).1, fun e => ?_, fun e => (docked e).2, track, run, move, ?_⟩
    · rw [other e]
      rfl
    · rw [written]
      rfl

/-! ### ABORT_TRANSFER (R132) -/

section

variable {s : State} {b : Byte} {h : HoistId} (found : s.configuredHoist b = some h)

include found

theorem State.abortTransfer_none (none_ : s.openHandover h = none) : s.abortTransfer b = s.refuse .state := by
  unfold State.abortTransfer
  rw [found]
  dsimp only
  rw [none_]

variable {l : LandingId} {v : Handover} (opened : s.openHandover h = some (l, v))

include opened

theorem State.abortTransfer_late (phase : v.phase ∈ [.transferring, .unlatching, .stuck]) :
    s.abortTransfer b = s.refuse .state := by
  unfold State.abortTransfer
  rw [found]
  dsimp only
  rw [opened]
  dsimp only
  simp only [List.mem_cons, List.not_mem_nil, or_false] at phase
  rcases phase with e | e | e <;> rw [e]

theorem State.abortTransfer_waiting (phase : v.phase = .waiting) : s.abortTransfer b = (s.closeHandover l h).accept := by
  unfold State.abortTransfer
  rw [found]
  dsimp only
  rw [opened]
  dsimp only
  rw [phase]

theorem State.abortTransfer_latching (phase : v.phase = .latching) :
    s.abortTransfer b = (s.undoLatch l v .abandoned).accept := by
  unfold State.abortTransfer
  rw [found]
  dsimp only
  rw [opened]
  dsimp only
  rw [phase]

end

/-- Settles O45, phase by phase. -/
theorem abortTransferByPhase : Obligations.AbortTransferByPhase := by
  intro o b s h k takes number config
  have found : (s.received .uplink).configuredHoist b = some h :=
    State.configuredHoist_eq (s := s.received .uplink) number config
  refine ⟨fun none_ => order_answered takes (State.abortTransfer_none found none_), fun l v opened => ?_⟩
  obtain ⟨inside, rfl⟩ := State.openHandover_some opened
  refine ⟨fun late => ?_, fun waits free nobody => ?_, fun rec i m latching record slot mass => ?_⟩
  · exact order_answered takes (State.abortTransfer_late found opened late)
  · obtain ⟨r', closed, docked, other, track, move, run⟩ := (s.received .uplink).removeHandover_closes l v.hoist
    refine ⟨r', order_answered takes ((State.abortTransfer_waiting found opened waits).trans ?_), docked, other, track, move,
      run⟩
    rw [State.closeHandover_eq (s := s.received .uplink) nobody, closed]
    unfold Landing.without
    rw [State.landing_received, if_neg free]
    rfl
  · refine order_answered takes ((State.abortTransfer_latching found opened latching).trans ?_)
    rw [State.undoLatch_eq (s := s.received .uplink) config slot mass record]
    rfl

/-! ### RESOLVE (R136) -/

theorem resolveOf_none {x : Byte} (e : 2 < x.toNat) : resolveOf x = none := by
  have a : x ≠ 0 := by rintro rfl; exact absurd e (by decide)
  have b : x ≠ 1 := by rintro rfl; exact absurd e (by decide)
  have c : x ≠ 2 := by rintro rfl; exact absurd e (by decide)
  unfold resolveOf
  rw [if_neg a, if_neg b, if_neg c]

/-- The three outcomes by their codes (R186). -/
theorem resolveOf_some {x : Byte} (e : x.toNat ≤ 2) :
    x = 0 ∧ resolveOf x = some .onHoist ∨ x = 1 ∧ resolveOf x = some .inSlot ∨ x = 2 ∧ resolveOf x = some .unknown := by
  obtain e | e | e : x.toNat = 0 ∨ x.toNat = 1 ∨ x.toNat = 2 := by omega
  · obtain rfl : x = 0 := BitVec.eq_of_toNat_eq e
    exact .inl ⟨rfl, rfl⟩
  · obtain rfl : x = 1 := BitVec.eq_of_toNat_eq e
    exact .inr (.inl ⟨rfl, rfl⟩)
  · obtain rfl : x = 2 := BitVec.eq_of_toNat_eq e
    exact .inr (.inr ⟨rfl, rfl⟩)

theorem resolveOf_isSome {x : Byte} (e : x.toNat ≤ 2) : ∃ y, resolveOf x = some y := by
  rcases resolveOf_some e with ⟨_, kind⟩ | ⟨_, kind⟩ | ⟨_, kind⟩ <;> exact ⟨_, kind⟩

section

variable {s : State} {b x : Byte} {h : HoistId} (found : s.configuredHoist b = some h)

include found

theorem State.resolve_range (out : resolveOf x = none) : s.resolve b x = s.refuse .range := by
  unfold State.resolve
  rw [found]
  dsimp only
  rw [out]

variable {y : ResolveOutcome} (kind : resolveOf x = some y)

include kind

theorem State.resolve_none (none_ : s.openHandover h = none) : s.resolve b x = s.refuse .state := by
  unfold State.resolve
  rw [found]
  dsimp only
  rw [kind]
  dsimp only
  rw [none_]

variable {l : LandingId} {v : Handover} (opened : s.openHandover h = some (l, v))

include opened

theorem State.resolve_eq :
    s.resolve b x =
      if v.phase ≠ .stuck then s.refuse .state
      else if v.settled = true then (s.toUnlatching l v).acceptWith 0
      else (((s.applyResolve l v y).settle l h .failed).toUnlatching l v).acceptWith 1 := by
  unfold State.resolve
  rw [found]
  dsimp only
  rw [kind]
  dsimp only
  rw [opened]

end

/-- The slot of a handover as it is resolved (R136). -/
def ResolveOutcome.slot (m : MassId) : ResolveOutcome → SlotState
  | .onHoist => .empty
  | .inSlot => .occupied m
  | .unknown => .unverified (some m)

/-- The hoist of a handover as it is resolved (R136). -/
def ResolveOutcome.hoist (m : MassId) (r : Hoist) : ResolveOutcome → Hoist
  | .onHoist => { r with carried := .mass m, weighPending := true }
  | .inSlot => { r with carried := .none, weighPending := false }
  | .unknown => { r with carried := .unknownLoad, weighPending := true }

/-- The status of a handover's mass as it is resolved (R136). -/
def ResolveOutcome.status (h : HoistId) (l : LandingId) (i : Nat) : ResolveOutcome → MassStatus
  | .onHoist => .placed (.hoist h)
  | .inSlot => .placed (.slot l i)
  | .unknown => .uncertain (some (.slot l i))

theorem ResolveOutcome.hoist_config (y : ResolveOutcome) (m : MassId) (r : Hoist) : (y.hoist m r).config = r.config := by
  cases y <;> rfl

section

variable {s : State} {l : LandingId} {v : Handover} {rec : LandingRec} {i : Nat} {m : MassId} (slot : v.slot = some i)
  (mass : v.mass = some m) (record : (s.landing l).record = some rec) (y : ResolveOutcome)

include slot mass record

/-- The records an unsettled handover is resolved to (R136). -/
theorem State.applyResolve_eq :
    s.applyResolve l v y =
      ((s.setLanding l { s.landing l with record := some { rec with slots := rec.slots.set i (y.slot m) } }).setHoist
        v.hoist (y.hoist m (s.hoist v.hoist))).setMass m { s.mass m with status := y.status v.hoist l i } := by
  have twice : ∀ (u : State) (c : Carried) (p : Bool), (u.setCarried v.hoist c).setWeighPending v.hoist p =
      u.setHoist v.hoist { u.hoist v.hoist with carried := c, weighPending := p } := by
    intro u c p
    unfold State.setCarried State.setWeighPending State.modHoist
    rw [State.setHoist_hoist_self, State.setHoist_setHoist]
  unfold State.applyResolve
  rw [slot, mass]
  cases y
  all_goals
    dsimp only
    rw [twice, State.setSlot_eq (s := s.setStatus m _) record]
    rfl

/-- With the settling and the UNLATCH (R136). -/
theorem State.resolved_eq {k : HoistConfig} (config : (s.hoist v.hoist).config = some k) :
    ((s.applyResolve l v y).settle l v.hoist .failed).toUnlatching l v =
      { ((s.setLanding l { s.landing l with
            record := some { rec with slots := rec.slots.set i (y.slot m) }
            queue := changeOf v.hoist (fun x => (x.settledAs .failed).letGo s) (s.landing l).queue }).setHoist v.hoist
          (y.hoist m (s.hoist v.hoist))).setMass m { s.mass m with status := y.status v.hoist l i } with
        outbox := s.outbox ++ [requestFrame rec k 4 i] } := by
  have applied := State.applyResolve_eq slot mass record y
  generalize s.applyResolve l v y = u at applied
  have here : u.landing l = { s.landing l with record := some { rec with slots := rec.slots.set i (y.slot m) } } := by
    rw [applied]
    exact State.setLanding_landing_self ..
  have config : (u.hoist v.hoist).config = some k := by
    rw [applied, State.hoist_setMass, State.setHoist_hoist_self, ResolveOutcome.hoist_config, config]
  rw [State.settle_toUnlatching config slot (by rw [here]), here, applied]
  rw [State.setLanding_setMass, State.setLanding_setHoist, State.setLanding_setLanding]
  rfl

end

/-- Settles O46, by the three outcomes. -/
theorem resolveFreesAStuckHandover : Obligations.ResolveFreesAStuckHandover := by
  intro o b x s h k takes number config
  have found : (s.received .uplink).configuredHoist b = some h :=
    State.configuredHoist_eq (s := s.received .uplink) number config
  refine ⟨fun out => order_answered takes (State.resolve_range found (resolveOf_none out)), fun low idle => ?_,
    fun l rec v i m opened stuck record slot mass low => ?_⟩
  · obtain ⟨y, kind⟩ := resolveOf_isSome low
    rcases idle with none_ | ⟨l, v, opened, other⟩
    · exact order_answered takes (State.resolve_none found kind none_)
    · exact order_answered takes ((State.resolve_eq found kind opened).trans (if_pos other))
  · obtain ⟨inside, rfl⟩ := State.openHandover_some opened
    intro unlatch queue
    refine ⟨fun settled => ?_, fun unsettled => ?_⟩
    · obtain ⟨y, kind⟩ := resolveOf_isSome low
      refine order_answered takes ((State.resolve_eq found kind opened).trans ?_)
      rw [if_neg (not_not.2 stuck), if_pos settled, State.toUnlatching_eq (s := s.received .uplink) config slot record]
      rfl
    · have open_ : ¬v.settled = true := Bool.eq_false_iff.1 unsettled
      have does : ∀ y, resolveOf x = some y → (s.received .uplink).resolve b x =
          ((((s.received .uplink).applyResolve l v y).settle l v.hoist .failed).toUnlatching l v).acceptWith 1 := by
        intro y kind
        rw [State.resolve_eq found kind opened, if_neg (not_not.2 stuck), if_neg open_]
      have leaves := State.resolved_eq (s := s.received .uplink) slot mass record (config := config)
      rcases resolveOf_some low with ⟨rfl, kind⟩ | ⟨rfl, kind⟩ | ⟨rfl, kind⟩
      all_goals exact order_answered takes ((does _ kind).trans (congrArg (State.acceptWith · 1) (leaves _)))

/-! ### Failures (R133 to R135) -/

/-- The state a handover's failure leaves, by its phase, with the shuttle in the state given. -/
def State.failedAs (s : State) (l : LandingId) (rec : LandingRec) (v : Handover) (k : HoistConfig) (i : Nat) (m : MassId)
    (shuttle : ShuttleState) : State :=
  let landing := fun (st : Option SlotState) (f : Handover → Handover) => s.setLanding l
    { s.landing l with
      shuttle := shuttle
      record := some { rec with slots := st.elim rec.slots fun x => rec.slots.set i x }
      queue := changeOf v.hoist f (s.landing l).queue }
  if v.phase = .latching then
    { (landing (some (if v.kind = .deposit then .empty else .occupied m)) fun x =>
        (x.settledAs .failed).letGo s).latchedBit 4 with
      outbox := s.outbox ++ [requestFrame rec k 4 i] }
  else if v.phase = .transferring then
    (((landing (some (.blocked (some m))) Handover.stuck).setHoist v.hoist
        { s.hoist v.hoist with carried := .unknownLoad }).setMass m
        { s.mass m with status := .uncertain (some (.slot l i)) }).latchedBit 4
  else (landing none Handover.stuck).latchedBit 4

theorem State.failedAs_received (s : State) (l : LandingId) (rec : LandingRec) (v : Handover) (k : HoistConfig) (i : Nat)
    (m : MassId) (shuttle : ShuttleState) :
    (s.received .field).failedAs l rec v k i m shuttle =
      { s.failedAs l rec v k i m shuttle with fieldReceiving := false } := by
  unfold State.failedAs
  dsimp only
  split
  · rfl
  · split <;> rfl

theorem State.handoverTimeout_eq {s : State} {l : LandingId} {rec : LandingRec} {v : Handover} {k : HoistConfig} {i : Nat}
    {m : MassId} (config : (s.hoist v.hoist).config = some k) (slot : v.slot = some i) (mass : v.mass = some m)
    (record : (s.landing l).record = some rec) (shuttle : ShuttleState)
    (phase : v.phase = .latching ∨ v.phase = .transferring ∨ v.phase = .unlatching) :
    (s.setLanding l { s.landing l with shuttle := shuttle }).handoverTimeout l v = s.failedAs l rec v k i m shuttle := by
  have here : (s.setLanding l { s.landing l with shuttle := shuttle }).landing l = { s.landing l with shuttle := shuttle } :=
    State.setLanding_landing_self ..
  unfold State.handoverTimeout State.failedAs
  dsimp only
  rcases phase with e | e | e
  · rw [e, if_pos rfl]
    dsimp only
    rw [State.latchFailure_eq (s := s.setLanding l _) config slot mass (by rw [here]; exact record), here,
      State.setLanding_setLanding]
    rfl
  · rw [e, if_neg nofun, if_pos rfl]
    dsimp only
    rw [State.transferFailure_eq (s := s.setLanding l _) slot mass (by rw [here]; exact record), here,
      State.setLanding_setLanding]
    rfl
  · rw [e, if_neg nofun, if_neg nofun]
    dsimp only
    rw [State.toStuck_eq, here, State.setLanding_setLanding]
    dsimp only
    rw [record]
    rfl

theorem shuttleStateOf_fault {x : Byte} (e : 4 ≤ x.toNat) : shuttleStateOf x = .fault := by
  have other : ∀ y : Byte, y.toNat < 4 → x ≠ y := by
    rintro y low rfl
    exact absurd e (Nat.not_le.2 low)
  unfold shuttleStateOf
  rw [if_neg (other 0 (by decide)), if_neg (other 1 (by decide)), if_neg (other 2 (by decide)),
    if_neg (other 3 (by decide))]

/-- Settles O28: the timer's expiry and FAULT fail a handover alike, and so does IDLE while it transfers. -/
theorem handoverFailuresByPhase : Obligations.HandoverFailuresByPhase := by
  intro h s l rec v k i m running opened record config slot mass
  obtain ⟨inside, rfl⟩ := State.openHandover_some opened
  intro landing stuck failed
  have fails : ∀ shuttle, failed shuttle = s.failedAs l rec v k i m shuttle := fun _ => rfl
  have expires : exec (.handoverTimerExpiry v.hoist) s = .next (expiry s v.timer fun s => s.handoverTimeout l v) := by
    change execHandoverTimerExpiry v.hoist s = _
    unfold execHandoverTimerExpiry
    rw [event_free s _ running, opened]
  refine ⟨fun e phase runs due => ?_, fun early => ?_, fun a w station few at_ holder => ?_⟩
  · have same : s.setLanding l { s.landing l with shuttle := (s.landing l).shuttle } = s := State.setLanding_same s l
    have timeout := State.handoverTimeout_eq config slot mass record (s.landing l).shuttle (by simpa using phase)
    rw [same] at timeout
    rw [expires, expiry_due s _ runs due, timeout, fails]
  · rw [expires, expiry_not s _ early]
  · intro reported
    have found := State.openHandover_find opened
    have next := shuttleReport_next running station few at_
    rw [State.takeShuttleReport_handover holder found] at next
    have failing : ∀ shuttle, shuttleStateOf w.state = shuttle →
        (v.phase = .latching ∨ v.phase = .transferring ∨ v.phase = .unlatching) →
        (s.reportedBy l shuttle).reportToHandover l v shuttle w.tag = (s.reportedBy l shuttle).handoverTimeout l v →
        reported (failed shuttle) := by
      intro shuttle code phase acts
      have timeout := State.handoverTimeout_eq (s := s.received .field) config slot mass record shuttle phase
      change (s.reportedBy l shuttle).handoverTimeout l v = _ at timeout
      rw [code, acts, timeout, State.failedAs_received] at next
      exact next
    refine ⟨fun fault phase => ?_, fun idle transferring => ?_⟩
    · have phase : v.phase = .latching ∨ v.phase = .transferring ∨ v.phase = .unlatching := by simpa using phase
      refine failing .fault ?_ phase ?_
      · exact shuttleStateOf_fault fault
      · unfold State.reportToHandover State.handoverTimeout
        rcases phase with e | e | e <;> rw [e]
    · refine failing .idle (by rw [idle]; rfl) (.inr (.inl transferring)) ?_
      unfold State.reportToHandover State.handoverTimeout
      rw [transferring]

end Sys2Proof.Machine
end

section
/-! ## O22: what a SHUTTLE_REPORT leaves of the shuttle states and the outbox -/

namespace Sys2Proof.Machine

/-- Every shuttle's state is as it was. -/
def State.SameShuttles (s t : State) : Prop := ∀ l, (t.landing l).shuttle = (s.landing l).shuttle

namespace State.SameShuttles

theorem same (s : State) : s.SameShuttles s := fun _ => rfl

theorem andThen {s t u : State} (a : s.SameShuttles t) (b : t.SameShuttles u) : s.SameShuttles u :=
  fun l => (b l).trans (a l)

theorem spared {s t : State} (a : s.Spares t) : s.SameShuttles t := fun l => (a.landing l).shuttle

theorem modLanding (s : State) (l : LandingId) {f : Landing → Landing} (keeps : ∀ x, (f x).shuttle = x.shuttle) :
    s.SameShuttles (s.modLanding l f) := by
  intro y
  rw [State.landing_modLanding]
  split
  · exact ‹y = l› ▸ keeps _
  · rfl

theorem modHandover (s : State) (l : LandingId) (h : HoistId) (f : Handover → Handover) :
    s.SameShuttles (s.modHandover l h f) := modLanding s l fun _ => rfl

/-! ### Grants and closes -/

theorem removeHandover (s : State) (l : LandingId) (h : HoistId) : s.SameShuttles (s.removeHandover l h) := by
  intro y
  rw [State.landing_removeHandover]
  split
  · exact ‹y = l› ▸ rfl
  · rfl

theorem grant (s : State) (l : LandingId) (v : Handover) : s.SameShuttles (s.grant l v) := by
  have taken : s.SameShuttles (s.modLanding l fun x => { x with holder := .handover v.hoist }) :=
    modLanding s l fun _ => rfl
  unfold State.grant
  dsimp only
  refine taken.andThen ?_
  split
  · split
    · exact ((spared (.setSlot _ _ _ _)).andThen (modHandover _ _ _ _)).andThen (spared (.requestFor _ _ _ _))
    · exact (spared (.latch _ _)).andThen (removeHandover _ _ _)
  · exact (spared (.latch _ _)).andThen (removeHandover _ _ _)

theorem arbiterFor (l : LandingId) (n : Nat) (s : State) : s.SameShuttles (State.arbiterFor l n s) := by
  induction n generalizing s with
  | zero => exact same s
  | succ n ih =>
    unfold State.arbiterFor
    split
    · split
      · exact same s
      · exact ((spared (.fold _ (fun s w => .markWaited s l _) _ s)).andThen (grant _ _ _)).andThen (ih _)
    · exact same s

theorem arbiter (s : State) (l : LandingId) : s.SameShuttles (s.arbiter l) := arbiterFor l _ s

/-! ### Phases and surveys -/

theorem toUnlatching (s : State) (l : LandingId) (v : Handover) : s.SameShuttles (s.toUnlatching l v) :=
  (modHandover s l _ _).andThen (spared (.requestFor _ _ _ _))

theorem toStuck (s : State) (l : LandingId) (h : HoistId) : s.SameShuttles (s.toStuck l h) :=
  (modHandover s l _ _).andThen (spared (.latch _ _))

theorem latchFailure (s : State) (l : LandingId) (v : Handover) : s.SameShuttles (s.latchFailure l v) :=
  ((spared ((Spares.revertSlot s l v).andThen (.settle _ _ _ _))).andThen (toUnlatching _ l v)).andThen
    (spared (.latch _ _))

theorem transferFailure (s : State) (l : LandingId) (v : Handover) : s.SameShuttles (s.transferFailure l v) := by
  unfold State.transferFailure
  dsimp only
  refine .andThen (spared (.andThen ?_ (.setCarried _ _ _))) (toStuck _ _ _)
  split
  · exact (Spares.setStatus s _ _).andThen (.setSlot _ _ _ _)
  · exact .same s

theorem transferDone (s : State) (l : LandingId) (v : Handover) (tag : Byte) : s.SameShuttles (s.transferDone l v tag) := by
  have closed : ∀ (u : State) (i : Nat), s.Spares u → s.SameShuttles
      ((((u.setWeighPending v.hoist (v.kind == .collect)).modRecord l fun rec =>
        { rec with pointer := (i + 1) % rec.slots.length }).settle l v.hoist .done).toUnlatching l v) := by
    intro u i a
    have settled := ((a.andThen (.setWeighPending u v.hoist (v.kind == .collect))).andThen
      (.modRecord _ l (f := fun rec => { rec with pointer := (i + 1) % rec.slots.length }) fun _ => rfl)).andThen
        (.settle _ l v.hoist .done)
    exact (spared settled).andThen (toUnlatching _ l v)
  unfold State.transferDone
  split
  · dsimp only
    split
    · exact closed _ _ (.applyTransfer s l v _ _)
    · exact closed _ _ (.applyMismatch s l v _ _ _)
  · exact same s

theorem reportToHandover (s : State) (l : LandingId) (v : Handover) (st : ShuttleState) (tag : Byte) :
    s.SameShuttles (s.reportToHandover l v st tag) := by
  unfold State.reportToHandover
  split
  · exact (modHandover s l _ _).andThen (spared (.requestFor _ _ _ _))
  · exact latchFailure s l v
  · exact transferDone s l v tag
  · exact transferFailure s l v
  · exact transferFailure s l v
  · exact (removeHandover s l _).andThen (arbiter _ l)
  · exact toStuck s l _
  · exact same s

theorem endSurvey (s : State) (l : LandingId) : s.SameShuttles (s.endSurvey l) := by
  refine .andThen (modLanding s l ?_) (arbiter _ l)
  exact fun _ => rfl

theorem surveyFailure (s : State) (l : LandingId) : s.SameShuttles (s.surveyFailure l) :=
  (spared (.latch s _)).andThen (endSurvey _ l)

theorem reportToSurvey (s : State) (l : LandingId) (st : ShuttleState) (codes : List Byte) :
    s.SameShuttles (s.reportToSurvey l st codes) := by
  unfold State.reportToSurvey
  dsimp only
  split
  · split
    · exact (spared (.reconcile s l _)).andThen (endSurvey _ l)
    · exact surveyFailure s l
  · exact surveyFailure s l
  all_goals exact same s

end State.SameShuttles

theorem State.takeShuttleReport_shuttle (s : State) (l : LandingId) (w : ShuttleWire) :
    ((s.takeShuttleReport l w).landing l).shuttle = shuttleStateOf w.state := by
  have set : ((s.modLanding l fun x => { x with shuttle := shuttleStateOf w.state }).landing l).shuttle =
      shuttleStateOf w.state := by
    rw [State.landing_modLanding, if_pos rfl]
  unfold State.takeShuttleReport
  dsimp only
  generalize s.modLanding l _ = u at set
  split
  · split
    · exact (SameShuttles.reportToHandover u l _ _ _ l).trans set
    · exact set
  · exact (SameShuttles.reportToSurvey u l _ _ l).trans set
  · exact (SameShuttles.arbiter u l l).trans set

/-- Settles O22: nothing the part does on the report touches the shuttle's state again or gives a frame to the uplink. -/
theorem shuttleReportForwardedLast : Obligations.ShuttleReportForwardedLast := by
  intro a w s l running station few at_
  obtain ⟨new, outbox, requests⟩ :=
    (State.Works.takeShuttleReport (q := .requests) (s.received .field) l w).gives
  refine ⟨_, new, shuttleReport_next running station few at_, ?_, fun x inside => (requests x inside).1, ?_⟩
  · unfold State.give
    rw [outbox]
    rfl
  · rw [State.landing_give, State.takeShuttleReport_shuttle]
    rfl

end Sys2Proof.Machine
end

section
/-! ## O24: DONE in TRANSFERRING -/

namespace Sys2Proof.Machine

/-! ### The end of a transfer, whatever its tag (R129) -/

theorem State.setHoist_setMass (s : State) (m : MassId) (r : Mass) (h : HoistId) (x : Hoist) :
    (s.setMass m r).setHoist h x = (s.setHoist h x).setMass m r := rfl

/-- The weighing, the pointer, the settling and the UNLATCH that end a transfer (R129). -/
theorem State.finished_eq {s : State} {l : LandingId} {v : Handover} {rec : LandingRec} {k : HoistConfig} {i : Nat}
    (config : (s.hoist v.hoist).config = some k) (slot : v.slot = some i) (record : (s.landing l).record = some rec) :
    ((((s.setWeighPending v.hoist (v.kind == .collect)).modRecord l fun rec =>
        { rec with pointer := (i + 1) % rec.slots.length }).settle l v.hoist .done).toUnlatching l v) =
      { (s.setHoist v.hoist { s.hoist v.hoist with weighPending := v.kind == .collect }).setLanding l { s.landing l with
          record := some { rec with pointer := (i + 1) % rec.slots.length }
          queue := changeOf v.hoist (fun x => (x.settledAs .done).letGo s) (s.landing l).queue } with
        outbox := s.outbox ++ [requestFrame rec k 4 i] } := by
  have pointed : ((s.setWeighPending v.hoist (v.kind == .collect)).modRecord l fun rec =>
      { rec with pointer := (i + 1) % rec.slots.length }) =
      (s.setHoist v.hoist { s.hoist v.hoist with weighPending := v.kind == .collect }).setLanding l
        { s.landing l with record := some { rec with pointer := (i + 1) % rec.slots.length } } := by
    unfold State.modRecord State.modLanding State.setWeighPending State.modHoist
    dsimp only
    rw [State.landing_setHoist, record]
    rfl
  generalize ((s.setWeighPending v.hoist (v.kind == .collect)).modRecord l fun rec =>
    { rec with pointer := (i + 1) % rec.slots.length }) = u at pointed
  have here : u.landing l = { s.landing l with record := some { rec with pointer := (i + 1) % rec.slots.length } } := by
    rw [pointed, State.setLanding_landing_self]
  have config : (u.hoist v.hoist).config = some k := by
    rw [pointed, State.hoist_setLanding, State.setHoist_hoist_self, config]
  rw [State.settle_toUnlatching config slot (by rw [here]), here, pointed, State.setLanding_setLanding]
  rfl

/-! ### With the handover's mass as tag (R129) -/

section

variable {s : State} {l : LandingId} {v : Handover} {rec : LandingRec} {k : HoistConfig} {i : Nat} {m : MassId}
  (config : (s.hoist v.hoist).config = some k) (slot : v.slot = some i) (mass : v.mass = some m)
  (record : (s.landing l).record = some rec)

/-- The records of a transfer of the handover's own mass. -/
theorem State.applyTransfer_eq (record : (s.landing l).record = some rec) :
    s.applyTransfer l v i m =
      ((s.setLanding l { s.landing l with record := some { rec with
          slots := rec.slots.set i (if v.kind = .deposit then .occupied m else .empty) } }).setHoist v.hoist
        { s.hoist v.hoist with carried := if v.kind = .deposit then .none else .mass m }).setMass m
        { s.mass m with status := .placed (if v.kind = .deposit then .slot l i else .hoist v.hoist) } := by
  unfold State.applyTransfer
  rw [State.setSlot_eq record, State.setSlot_eq record]
  cases v.kind <;> rfl

include config slot mass record

theorem State.transferDone_own {tag : Byte} (own : tag = 0 ∨ tag.toNat = m.val + 1) :
    s.transferDone l v tag =
      { ((s.setLanding l { s.landing l with
            record := some { rec with
              slots := rec.slots.set i (if v.kind = .deposit then .occupied m else .empty)
              pointer := (i + 1) % rec.slots.length }
            queue := changeOf v.hoist (fun x => (x.settledAs .done).letGo s) (s.landing l).queue }).setHoist v.hoist
          { s.hoist v.hoist with
            carried := if v.kind = .deposit then .none else .mass m
            weighPending := v.kind == .collect }).setMass m
          { s.mass m with status := .placed (if v.kind = .deposit then .slot l i else .hoist v.hoist) } with
        outbox := s.outbox ++ [requestFrame rec k 4 i] } := by
  have moved := State.applyTransfer_eq (v := v) (i := i) (m := m) record
  unfold State.transferDone
  rw [slot, mass]
  dsimp only
  rw [if_pos own]
  generalize s.applyTransfer l v i m = u at moved
  have here : u.landing l = { s.landing l with record := some { rec with
      slots := rec.slots.set i (if v.kind = .deposit then .occupied m else .empty) } } := by
    rw [moved]
    exact State.setLanding_landing_self ..
  have self : u.hoist v.hoist =
      { s.hoist v.hoist with carried := if v.kind = .deposit then .none else .mass m } := by
    rw [moved, State.hoist_setMass, State.setHoist_hoist_self]
  rw [State.finished_eq (k := k) (by rw [self]; exact config) slot (by rw [here]), here, self, moved, State.setHoist_setMass,
    State.setHoist_setHoist, State.setLanding_setMass, State.setLanding_setHoist, State.setLanding_setLanding,
    List.length_set]
  rfl

end

/-! ### Changes of slots, carried states and mass records alone -/

/-- The landings differ in their slots alone, and of the rest nothing differs but the hoists and the masses. -/
structure State.Rerecords (s t : State) : Prop where
  only : t = { s with landings := t.landings, hoists := t.hoists, masses := t.masses }
  landing : ∀ y, t.landing y = { s.landing y with record := (t.landing y).record }
  slots : ∀ y x, (s.landing y).record = some x →
    ∃ slots, slots.length = x.slots.length ∧ (t.landing y).record = some { x with slots := slots }
  undefined : ∀ y, (s.landing y).record = none → (t.landing y).record = none

namespace State.Rerecords

theorem same (s : State) : s.Rerecords s := ⟨rfl, fun _ => rfl, fun _ x e => ⟨x.slots, rfl, e⟩, fun _ => id⟩

theorem andThen {s t u : State} (a : s.Rerecords t) (b : t.Rerecords u) : s.Rerecords u := by
  refine ⟨?_, fun y => ?_, fun y x e => ?_, fun y e => b.undefined y (a.undefined y e)⟩
  · have only := b.only
    rw [a.only] at only
    exact only
  · rw [b.landing y, a.landing y]
  · obtain ⟨slots, length, record⟩ := a.slots y x e
    obtain ⟨slots', length', record'⟩ := b.slots y _ record
    exact ⟨slots', length'.trans length, record'⟩

/-- A change of hoists and masses. -/
theorem of_landings {s t : State} (only : t = { s with hoists := t.hoists, masses := t.masses }) : s.Rerecords t := by
  have landing : ∀ y, t.landing y = s.landing y := fun y => by
    rw [only]
    rfl
  refine ⟨?_, fun y => ?_, fun y x e => ⟨x.slots, rfl, by rw [landing]; exact e⟩, fun y e => by rw [landing]; exact e⟩
  · rw [only]
  · rw [landing]

theorem setSlot (s : State) (l : LandingId) (i : Nat) (st : SlotState) : s.Rerecords (s.setSlot l i st) := by
  have landing : ∀ y, (s.setSlot l i st).landing y = if y = l then (s.landing l).slotted i st else s.landing y :=
    fun y => State.landing_modLanding ..
  refine ⟨rfl, fun y => ?_, fun y x e => ?_, fun y e => ?_⟩
  all_goals rw [landing]
  · split
    · exact ‹y = l› ▸ rfl
    · rfl
  · split
    · rename_i same
      subst same
      unfold Landing.slotted
      exact ⟨x.slots.set i st, List.length_set, by rw [e]; rfl⟩
    · exact ⟨x.slots, rfl, e⟩
  · split
    · rename_i same
      subst same
      unfold Landing.slotted
      rw [e]
      rfl
    · exact e

theorem setCarried (s : State) (h : HoistId) (c : Carried) : s.Rerecords (s.setCarried h c) := of_landings rfl

theorem setStatus (s : State) (m : MassId) (x : MassStatus) : s.Rerecords (s.setStatus m x) := of_landings rfl

theorem doubtPlace (s : State) (t : MassId) : s.Rerecords (s.doubtPlace t) := by
  unfold State.doubtPlace
  split
  · exact setSlot s _ _ _
  · split
    · exact setCarried s _ _
    · exact same s
  · exact same s

end State.Rerecords

/-! ### What is read of them -/

/-- A slot index of a defined landing. -/
def State.HasSlot (s : State) (l : LandingId) (i : Nat) : Prop :=
  ∃ rec, (s.landing l).record = some rec ∧ i < rec.slots.length

theorem State.HasSlot.rerecorded {s t : State} {l : LandingId} {i : Nat} (x : s.HasSlot l i) (a : s.Rerecords t) :
    t.HasSlot l i := by
  obtain ⟨rec, record, within⟩ := x
  obtain ⟨slots, length, record'⟩ := a.slots l rec record
  exact ⟨_, record', by rwa [length]⟩

theorem State.slotAt_setSlot_other (s : State) {l y : LandingId} {i j : Nat} (ne : ¬(y = l ∧ j = i)) (st : SlotState) :
    (s.setSlot l i st).slotAt y j = s.slotAt y j := by
  unfold State.slotAt State.setSlot State.modRecord
  rw [State.landing_modLanding]
  by_cases e : y = l
  · subst e
    rw [if_pos rfl]
    cases (s.landing y).record with
    | none => rfl
    | some rec =>
      dsimp only [Option.map_some]
      rw [List.getD_eq_getElem?_getD, List.getD_eq_getElem?_getD, List.getElem?_set_ne fun e => ne ⟨rfl, e.symm⟩]
  · rw [if_neg e]

theorem State.slotAt_setSlot_self {s : State} {l : LandingId} {i : Nat} (has : s.HasSlot l i) (st : SlotState) :
    (s.setSlot l i st).slotAt l i = st := by
  obtain ⟨rec, record, within⟩ := has
  have written : ((s.setSlot l i st).landing l).record = some { rec with slots := rec.slots.set i st } := by
    rw [State.setSlot_eq record, State.setLanding_landing_self]
  rw [State.slotAt_eq written, List.getElem?_set_self within, Option.getD_some]

/-- Beyond the slots there is nothing to read. -/
theorem State.slotAt_beyond {s : State} {l : LandingId} {i : Nat} (none_ : ¬s.HasSlot l i) : s.slotAt l i = .empty := by
  unfold State.slotAt
  split
  · rename_i rec record
    rw [List.getD_eq_getElem?_getD, List.getElem?_eq_none (Nat.not_lt.1 fun within => none_ ⟨rec, record, within⟩)]
    rfl
  · rfl

theorem SlotState.doubt_eq (st : SlotState) (t : MassId) : st.doubt t = st.doubted t := by
  unfold SlotState.doubt SlotState.doubted
  split
  case h_1 x => by_cases e : x = t <;> simp [e]
  case h_2 x => by_cases e : x = t <;> simp [e]
  case h_3 x => by_cases e : x = t <;> simp [e]
  all_goals simp

section

variable (s : State) (t : MassId)

theorem State.slotAt_doubtPlace (y : LandingId) (j : Nat) :
    (s.doubtPlace t).slotAt y j =
      if (s.mass t).status.place = some (.slot y j) then (s.slotAt y j).doubted t else s.slotAt y j := by
  unfold State.doubtPlace
  split
  · rename_i l i place
    rw [place]
    by_cases e : y = l ∧ j = i
    · obtain ⟨rfl, rfl⟩ := e
      rw [if_pos rfl, ← SlotState.doubt_eq]
      by_cases has : s.HasSlot y j
      · exact State.slotAt_setSlot_self has _
      · have none_ : ¬(s.setSlot y j ((s.slotAt y j).doubt t)).HasSlot y j := by
          rintro ⟨rec, record, within⟩
          cases old : (s.landing y).record with
          | none => rw [(State.Rerecords.setSlot s y j _).undefined y old] at record; cases record
          | some x =>
            obtain ⟨slots, length, record'⟩ := (State.Rerecords.setSlot s y j _).slots y x old
            cases record'.symm.trans record
            exact has ⟨x, old, length ▸ within⟩
        rw [State.slotAt_beyond none_, State.slotAt_beyond has]
        rfl
    · rw [State.slotAt_setSlot_other s e, if_neg]
      rintro ⟨⟩
      exact e ⟨rfl, rfl⟩
  · rename_i h place
    have elsewhere : (s.mass t).status.place ≠ some (.slot y j) := by rw [place]; exact nofun
    rw [if_neg elsewhere]
    split <;> rfl
  · rename_i place
    have elsewhere : (s.mass t).status.place ≠ some (.slot y j) := by rw [place]; exact nofun
    rw [if_neg elsewhere]

theorem State.hoist_doubtPlace (y : HoistId) :
    (s.doubtPlace t).hoist y =
      if (s.mass t).status.place = some (.hoist y) ∧ (s.hoist y).carried = .mass t then
        { s.hoist y with carried := .unknownLoad }
      else s.hoist y := by
  unfold State.doubtPlace
  split
  · rename_i l i place
    rw [place, if_neg fun both => nomatch both.1]
    rfl
  · rename_i h place
    by_cases e : y = h
    · subst e
      rw [place]
      by_cases carries : (s.hoist y).carried = .mass t
      · rw [if_pos carries, if_pos ⟨rfl, carries⟩]
        exact State.modHoist_hoist_self ..
      · rw [if_neg carries, if_neg fun both => carries both.2]
    · have elsewhere : ¬((s.mass t).status.place = some (.hoist y) ∧ (s.hoist y).carried = .mass t) := by
        rw [place]
        rintro ⟨⟨⟩, _⟩
        exact e rfl
      rw [if_neg elsewhere]
      split
      · exact State.modHoist_hoist_ne _ e _
      · rfl
  · rename_i place
    rw [place, if_neg fun both => nomatch both.1]

theorem State.mass_doubtPlace (x : MassId) : (s.doubtPlace t).mass x = s.mass x := by
  unfold State.doubtPlace
  split
  · rfl
  · split <;> rfl
  · rfl

end

/-! ### With another tag (R130) -/

/-- The slot of a transfer with another tag: emptied by a COLLECT, and taken by a DEPOSIT with what the tag names. -/
def Handover.slotFound (v : Handover) (found : Option MassId) : SlotState :=
  if v.kind = .deposit then found.elim (.blocked none) .occupied else .empty

/-- What the hoist of a transfer with another tag carries then. -/
def Handover.carriedFound (v : Handover) (found : Option MassId) : Carried :=
  if v.kind = .deposit then .none else found.elim .unknownLoad .mass

/-- The records of a transfer with another tag, which names the mass found if it counts as declared (R130). -/
def State.mismatched (s : State) (l : LandingId) (v : Handover) (i : Nat) (m : MassId) (found : Option MassId) : State :=
  let moved := ((found.elim s s.doubtPlace).setSlot l i (v.slotFound found)).setCarried v.hoist (v.carriedFound found)
  (found.elim moved fun t => moved.setStatus t (.placed (if v.kind = .deposit then .slot l i else .hoist v.hoist))).setStatus
    m (.uncertain none)

theorem State.applyMismatch_eq (s : State) (l : LandingId) (v : Handover) (i : Nat) (m : MassId) (tag : Byte) :
    s.applyMismatch l v i m tag =
      (s.mismatched l v i m (s.declaredTag (s.massInOtherHandover v.hoist) tag)).latch .tag := by
  unfold State.applyMismatch State.mismatched Handover.slotFound Handover.carriedFound
  dsimp only
  cases s.declaredTag (s.massInOtherHandover v.hoist) tag <;> cases v.kind <;> rfl

section

variable (s : State) (l : LandingId) (v : Handover) (i : Nat) (m : MassId) (found : Option MassId)

theorem State.Rerecords.doubted : s.Rerecords (found.elim s s.doubtPlace) := by
  cases found with
  | none => exact .same s
  | some t => exact .doubtPlace s t

theorem State.Rerecords.mismatched : s.Rerecords (s.mismatched l v i m found) := by
  have moved : s.Rerecords (((found.elim s s.doubtPlace).setSlot l i (v.slotFound found)).setCarried v.hoist
      (v.carriedFound found)) :=
    ((State.Rerecords.doubted s found).andThen (.setSlot _ l i _)).andThen (.setCarried _ v.hoist _)
  unfold State.mismatched
  refine .andThen ?_ (.setStatus _ m _)
  cases found with
  | none => exact moved
  | some t => exact moved.andThen (.setStatus _ t _)

theorem State.slotAt_mismatched (has : s.HasSlot l i) (y : LandingId) (j : Nat) :
    (s.mismatched l v i m found).slotAt y j =
      if y = l ∧ j = i then v.slotFound found
      else if (found.bind fun x => (s.mass x).status.place) = some (.slot y j) then
        found.elim (s.slotAt y j) fun x => (s.slotAt y j).doubted x
      else s.slotAt y j := by
  have written : (s.mismatched l v i m found).slotAt y j =
      ((found.elim s s.doubtPlace).setSlot l i (v.slotFound found)).slotAt y j := by
    unfold State.mismatched
    cases found <;> rfl
  rw [written]
  by_cases e : y = l ∧ j = i
  · obtain ⟨rfl, rfl⟩ := e
    rw [if_pos ⟨rfl, rfl⟩]
    exact State.slotAt_setSlot_self (has.rerecorded (.doubted s found)) _
  · rw [if_neg e, State.slotAt_setSlot_other _ e]
    cases found with
    | none => exact (if_neg nofun).symm
    | some t => exact State.slotAt_doubtPlace s t y j

theorem State.hoist_mismatched (y : HoistId) :
    (s.mismatched l v i m found).hoist y =
      if y = v.hoist then { s.hoist y with carried := v.carriedFound found }
      else if (found.bind fun x => (s.mass x).status.place) = some (.hoist y) ∧
          (found.any fun x => (s.hoist y).carried == .mass x) = true then
        { s.hoist y with carried := .unknownLoad }
      else s.hoist y := by
  have written : (s.mismatched l v i m found).hoist y =
      ((found.elim s s.doubtPlace).setCarried v.hoist (v.carriedFound found)).hoist y := by
    unfold State.mismatched
    cases found <;> rfl
  have doubted : ∀ y, (found.elim s s.doubtPlace).hoist y =
      if (found.bind fun x => (s.mass x).status.place) = some (.hoist y) ∧
          (found.any fun x => (s.hoist y).carried == .mass x) = true then
        { s.hoist y with carried := .unknownLoad }
      else s.hoist y := by
    intro y
    cases found with
    | none => exact (if_neg fun both => nomatch both.1).symm
    | some t =>
      refine (State.hoist_doubtPlace s t y).trans ?_
      simp only [Option.bind_some, Option.any_some, beq_iff_eq]
  rw [written]
  unfold State.setCarried
  rw [State.modHoist_hoist]
  split
  · rename_i same
    subst same
    rw [doubted]
    split <;> rfl
  · exact doubted y

theorem State.mass_mismatched (x : MassId) :
    (s.mismatched l v i m found).mass x =
      if x = m then { s.mass x with status := .uncertain none }
      else if found = some x then
        { s.mass x with status := .placed (if v.kind = .deposit then .slot l i else .hoist v.hoist) }
      else s.mass x := by
  have kept : ∀ x, (found.elim s s.doubtPlace).mass x = s.mass x := by
    intro x
    cases found with
    | none => rfl
    | some t => exact State.mass_doubtPlace s t x
  have named : ∀ x, (((found.elim s s.doubtPlace).setSlot l i (v.slotFound found)).setCarried v.hoist
      (v.carriedFound found)).mass x = s.mass x := kept
  unfold State.mismatched
  dsimp only
  generalize ((found.elim s s.doubtPlace).setSlot l i (v.slotFound found)).setCarried v.hoist (v.carriedFound found) = u
    at named
  cases found with
  | none =>
    rw [Option.elim_none, if_neg (show ¬none = some x from nofun)]
    unfold State.setStatus State.modMass
    rw [State.mass_setMass]
    split
    · rename_i same
      subst same
      rw [named]
    · exact named x
  | some t =>
    rw [Option.elim_some]
    unfold State.setStatus State.modMass
    rw [State.mass_setMass, State.mass_setMass, State.mass_setMass]
    by_cases e : x = m
    · subst e
      rw [if_pos rfl, if_pos rfl]
      split
      · exact ‹x = t› ▸ congrArg (fun r : Mass => { r with status := .uncertain none }) (named x)
      · rw [named]
    · rw [if_neg e, if_neg e]
      by_cases e : x = t
      · subst e
        rw [if_pos rfl, if_pos rfl, named]
      · rw [if_neg e, if_neg fun same => e (Option.some.inj same).symm, named]

end

/-! ### The mass a tag names (R130) -/

theorem State.massInOtherHandover_iff {s : State} {h : HoistId} {m : MassId} :
    s.massInOtherHandover h m = true ↔ s.InHandover (some h) m := by
  unfold State.massInOtherHandover State.InHandover
  rw [List.any_eq_true]
  constructor
  · rintro ⟨v, inside, both⟩
    obtain ⟨y, queued⟩ := State.mem_handovers.1 inside
    rw [Bool.and_eq_true, bne_iff_ne, beq_iff_eq] at both
    exact ⟨y, v, queued, fun e => both.1 (Option.some.inj e).symm, both.2⟩
  · rintro ⟨y, v, queued, ne, mass⟩
    refine ⟨v, State.mem_handovers.2 ⟨y, queued⟩, ?_⟩
    rw [Bool.and_eq_true, bne_iff_ne, beq_iff_eq]
    exact ⟨fun e => ne (congrArg some e.symm), mass⟩

theorem MassStatus.present_iff {x : MassStatus} : x.present = true ↔ x ≠ .absent := by
  cases x <;> simp [MassStatus.present]

theorem massOf_iff {b : Byte} {m : MassId} : massOf b = some m ↔ b.toNat = m.val + 1 := by
  refine ⟨fun e => ?_, fun e => numbered_eq_some e⟩
  unfold massOf numbered at e
  split at e
  · cases e
    dsimp only
    omega
  · cases e

/-- The tag names the mass it spells, where that mass counts as declared. -/
theorem State.declaredTag_eq {s : State} {h : HoistId} {tag : Byte} {found : Option MassId}
    (named : ∀ x, found = some x ↔
      tag.toNat = x.val + 1 ∧ (s.mass x).status ≠ .absent ∧ ¬s.InHandover (some h) x) :
    s.declaredTag (s.massInOtherHandover h) tag = found := by
  have counts : ∀ x, s.declaredTag (s.massInOtherHandover h) tag = some x ↔ found = some x := by
    intro x
    rw [named, ← massOf_iff, ← MassStatus.present_iff, ← State.massInOtherHandover_iff, Bool.not_eq_true]
    unfold State.declaredTag
    cases massOf tag with
    | none => exact ⟨nofun, fun e => nomatch e.1⟩
    | some t =>
      dsimp only
      constructor
      · intro e
        split at e
        · cases e
          exact ⟨rfl, ‹_ ∧ _›.1, ‹_ ∧ _›.2⟩
        · cases e
      · rintro ⟨⟨⟩, present, other⟩
        exact if_pos ⟨present, other⟩
  exact Option.ext counts

/-! ### The transfer with another tag -/

/-- What follows the records of a transfer with another tag: TAG latched, the hoist's flag, the landing and the request. -/
def State.endedWith (u : State) (h : HoistId) (weighs : Bool) (l : LandingId) (r : Landing) (sent : List (Port × Frame)) :
    State :=
  { ((u.latch .tag).setHoist h { u.hoist h with weighPending := weighs }).setLanding l r with outbox := sent }

section

variable (u : State) (h : HoistId) (weighs : Bool) (l : LandingId) (r : Landing) (sent : List (Port × Frame))

theorem State.landing_endedWith (y : LandingId) :
    (u.endedWith h weighs l r sent).landing y = if y = l then r else u.landing y :=
  State.landing_setLanding ..

theorem State.hoist_endedWith (y : HoistId) :
    (u.endedWith h weighs l r sent).hoist y = if y = h then { u.hoist y with weighPending := weighs } else u.hoist y := by
  refine (State.setHoist_hoist ..).trans ?_
  split
  · exact ‹y = h› ▸ rfl
  · rfl

theorem State.slotAt_endedWith {rec : LandingRec} {n : Nat} (before : (u.landing l).record = some rec)
    (after : r.record = some { rec with pointer := n }) (y : LandingId) (j : Nat) :
    (u.endedWith h weighs l r sent).slotAt y j = u.slotAt y j := by
  unfold State.slotAt
  rw [State.landing_endedWith]
  by_cases same : y = l
  · rw [if_pos same, same, after, before]
  · rw [if_neg same]

end

section

variable {s : State} {l : LandingId} {v : Handover} {rec : LandingRec} {k : HoistConfig} {i : Nat} {m : MassId}
  (config : (s.hoist v.hoist).config = some k) (slot : v.slot = some i) (mass : v.mass = some m)
  (record : (s.landing l).record = some rec)

include config slot mass record

/-- The records first, TAG latched, and then what ends any transfer (R129, R130). -/
theorem State.transferDone_other {tag : Byte} (set : tag ≠ 0) (other : tag.toNat ≠ m.val + 1) :
    let u := s.mismatched l v i m (s.declaredTag (s.massInOtherHandover v.hoist) tag)
    ∃ slots, slots.length = rec.slots.length ∧ (u.landing l).record = some { rec with slots := slots } ∧
      s.transferDone l v tag =
        u.endedWith v.hoist (v.kind == .collect) l
          { s.landing l with
            record := some { rec with slots := slots, pointer := (i + 1) % rec.slots.length }
            queue := changeOf v.hoist (fun x => (x.settledAs .done).letGo s) (s.landing l).queue }
          (s.outbox ++ [requestFrame rec k 4 i]) := by
  intro u
  have rerecords : s.Rerecords u := .mismatched ..
  obtain ⟨slots, length, record'⟩ := rerecords.slots l rec record
  refine ⟨slots, length, record', ?_⟩
  have config : ((u.latch .tag).hoist v.hoist).config = some k := by
    rw [State.hoist_latch, State.hoist_mismatched, if_pos rfl]
    exact config
  have same : u.now = s.now ∧ u.timers = s.timers ∧ u.outbox = s.outbox := by
    rw [rerecords.only]
    exact ⟨rfl, rfl, rfl⟩
  obtain ⟨now, timers, outbox⟩ := same
  have here := rerecords.landing l
  rw [record'] at here
  have letGo : ∀ x : Handover, x.letGo (u.latch .tag) = x.letGo s := by
    intro x
    unfold Handover.letGo
    rw [← now, ← timers]
    rfl
  unfold State.transferDone
  rw [slot, mass]
  dsimp only
  rw [if_neg (not_or.2 ⟨set, other⟩), State.applyMismatch_eq]
  change State.toUnlatching (State.settle (State.modRecord (State.setWeighPending (u.latch .tag) _ _) _ _) _ _ _) _ _ = _
  rw [State.finished_eq (s := u.latch .tag) config slot record', State.landing_latch, here]
  simp only [letGo, length]
  rw [← outbox]
  rfl

end

theorem State.landing_reportedBy_eq (s : State) (l y : LandingId) (st : ShuttleState) :
    (s.reportedBy l st).landing y = if y = l then { s.landing y with shuttle := st } else s.landing y := by
  split
  · rename_i same
    subst same
    exact s.landing_reportedBy y st
  · exact State.setLanding_landing_ne _ ‹y ≠ l› _

theorem State.record_reportedBy (s : State) (l y : LandingId) (st : ShuttleState) :
    ((s.reportedBy l st).landing y).record = (s.landing y).record := by
  rw [State.landing_reportedBy_eq]
  split <;> rfl

theorem State.queue_reportedBy (s : State) (l y : LandingId) (st : ShuttleState) :
    ((s.reportedBy l st).landing y).queue = (s.landing y).queue := by
  rw [State.landing_reportedBy_eq]
  split <;> rfl

theorem State.slotAt_reportedBy (s : State) (l y : LandingId) (st : ShuttleState) (j : Nat) :
    (s.reportedBy l st).slotAt y j = s.slotAt y j := by
  unfold State.slotAt
  rw [State.record_reportedBy]

theorem State.inHandover_reportedBy (s : State) (l : LandingId) (st : ShuttleState) (h : Option HoistId) (m : MassId) :
    (s.reportedBy l st).InHandover h m ↔ s.InHandover h m := by
  unfold State.InHandover
  simp only [State.queue_reportedBy]

/-- Settles O24: the two ways a tag can read, and what each leaves, read from the written state. -/
theorem doneMovesTheMass : Obligations.DoneMovesTheMass := by
  intro a w s l rec v k i m running station few at_ record holder found config slot mass phase state pushed pointer queue
    sent
  have done : shuttleStateOf w.state = .done := by rw [state]; rfl
  have begun : (s.reportedBy l .done).reportToHandover l v .done w.tag = (s.reportedBy l .done).transferDone l v w.tag := by
    unfold State.reportToHandover
    rw [phase]
  have next := shuttleReport_next running station few at_
  rw [State.takeShuttleReport_handover holder found, done, begun] at next
  have here := s.landing_reportedBy l .done
  have weighs : (v.kind == .collect) = if v.kind = .deposit then false else true := by cases v.kind <;> rfl
  have record' : ((s.reportedBy l .done).landing l).record = some rec := by rw [here]; exact record
  refine ⟨fun own => ?_, fun within set other tag named => ?_⟩
  · rw [next, State.transferDone_own (s := s.reportedBy l .done) config slot mass record' own, here, weighs]
    unfold State.reportedBy
    rw [State.setLanding_setLanding]
    refine congrArg Host.Outcome.next ?_
    unfold State.give
    dsimp only
    rw [List.append_assoc]
    rfl
  · intro former
    have declared : (s.reportedBy l .done).declaredTag ((s.reportedBy l .done).massInOtherHandover v.hoist) w.tag = tag :=
      State.declaredTag_eq fun x => by rw [State.inHandover_reportedBy, named]; rfl
    have slotAt := State.slotAt_mismatched (s.reportedBy l .done) l v i m tag ⟨rec, record', within⟩
    simp only [State.slotAt_reportedBy] at slotAt
    have hoist := State.hoist_mismatched (s.reportedBy l .done) l v i m tag
    have masses := State.mass_mismatched (s.reportedBy l .done) l v i m tag
    have rerecords := State.Rerecords.mismatched (s.reportedBy l .done) l v i m tag
    obtain ⟨slots, length, recordM, ended⟩ :=
      State.transferDone_other (s := s.reportedBy l .done) config slot mass record' set other
    rw [declared] at recordM ended
    rw [next, ended, weighs, here]
    generalize (s.reportedBy l .done).mismatched l v i m tag = M at *
    obtain ⟨r, at_l⟩ : ∃ r : Landing, r =
        { s.landing l with shuttle := .done, record := some { rec with slots := slots, pointer := pointer }, queue := queue } :=
      ⟨_, rfl⟩
    obtain ⟨t, written⟩ : ∃ t, t = (M.endedWith v.hoist (if pushed then false else true) l r
        (s.outbox ++ [requestFrame rec k 4 i])).give .uplink (makeFrame a kindShuttleReport (shuttleBytes w)) := ⟨_, rfl⟩
    have landing : ∀ y, t.landing y = if y = l then r else M.landing y := by
      intro y
      rw [written]
      exact State.landing_endedWith ..
    refine ⟨t, ?_, fun y j => ?_, fun y => ?_, fun x => ?_, fun y => ?_, fun y x e => ?_, fun y e => ?_, ?_⟩
    · rw [written, at_l]
      rfl
    · rw [written]
      exact (State.slotAt_endedWith M _ _ _ _ _ recordM (by rw [at_l]) y j).trans (slotAt y j)
    · rw [written]
      refine (State.hoist_endedWith ..).trans ?_
      rw [hoist]
      split <;> rfl
    · rw [written]
      exact masses x
    · rw [landing y]
      split
      · rename_i same
        rw [at_l, same]
      · rw [rerecords.landing y, State.landing_reportedBy_eq, if_neg ‹y ≠ l›]
    · rw [landing y]
      split
      · rename_i same
        subst same
        cases record.symm.trans e
        exact ⟨slots, length, by rw [at_l]⟩
      · exact rerecords.slots y x ((State.record_reportedBy ..).trans e)
    · rw [landing y, if_neg fun same => by rw [same, record] at e; cases e]
      exact rerecords.undefined y ((State.record_reportedBy ..).trans e)
    · have ordered : sent = s.outbox ++ [requestFrame rec k 4 i] ++
          [(.uplink, makeFrame a kindShuttleReport (shuttleBytes w))] := by
        rw [List.append_assoc]
        rfl
      rw [written, ordered]
      unfold State.endedWith
      rw [rerecords.only]
      rfl

end Sys2Proof.Machine
end

section
/-! ## O26: the slot a grant chooses -/

namespace Sys2Proof.Machine

/-! ### The first of a range -/

theorem findSome?_range_some {α : Type} (g : Nat → Option α) (n : Nat) (a : α) :
    (List.range n).findSome? g = some a ↔ ∃ k, k < n ∧ g k = some a ∧ ∀ j, j < k → g j = none := by
  induction n with
  | zero => simp
  | succ n ih =>
    rw [List.range_succ, List.findSome?_append, Option.or_eq_some_iff, ih, List.findSome?_singleton]
    constructor
    · rintro (⟨k, lt, found, first⟩ | ⟨nothing, found⟩)
      · exact ⟨k, by omega, found, first⟩
      · exact ⟨n, by omega, found, fun j lt => List.findSome?_eq_none_iff.1 nothing j (List.mem_range.2 lt)⟩
    · rintro ⟨k, lt, found, first⟩
      rcases Nat.lt_succ_iff_lt_or_eq.1 lt with lt | rfl
      · exact .inl ⟨k, lt, found, first⟩
      · exact .inr ⟨List.findSome?_eq_none_iff.2 fun j m => first j (List.mem_range.1 m), found⟩

/-- A search and its result with what goes with it, as one search. -/
theorem find?_with {α β : Type} (xs : List α) (p : α → Bool) (b : β) :
    (xs.find? p).map (·, b) = xs.findSome? fun x => if p x = true then some (x, b) else none := by
  induction xs with
  | nil => rfl
  | cons x xs ih =>
    rw [List.find?_cons, List.findSome?_cons]
    cases p x
    · exact ih
    · rfl

/-! ### The slots a scan visits (R121) -/

/-- The slot a scan visits after so many others. -/
def LandingRec.visited (rec : LandingRec) (n : Nat) : Nat :=
  if rec.orderMode = .sequential then (rec.pointer + n) % rec.slots.length else rec.pointer ^^^ n

theorem LandingRec.scan_eq (rec : LandingRec) : rec.scan = (List.range rec.slots.length).map rec.visited := by
  unfold LandingRec.scan LandingRec.visited
  cases rec.orderMode <;> rfl

/-- A scan stays within the slots: their number is a power of 2. -/
theorem LandingRec.visited_lt {rec : LandingRec} (sizes : rec.slots.length = 4 ∨ rec.slots.length = 8)
    (pointer : rec.pointer < rec.slots.length) {n : Nat} (lt : n < rec.slots.length) : rec.visited n < rec.slots.length := by
  unfold LandingRec.visited
  split
  · exact Nat.mod_lt _ (by omega)
  · obtain ⟨b, power⟩ : ∃ b, rec.slots.length = 2 ^ b := by
      rcases sizes with e | e
      · exact ⟨2, e⟩
      · exact ⟨3, e⟩
    rw [power] at pointer lt ⊢
    exact Nat.xor_lt_two_pow pointer lt

/-! ### The slot that fits (R121) -/

/-- The slot is in the state the handover needs, with the mass it has then. -/
def LandingRec.Fits (rec : LandingRec) (v : Handover) (j : Nat) (x : MassId) : Prop :=
  (v.kind = .deposit ∧ rec.slots[j]? = some .empty ∧ v.mass = some x) ∨
    (v.kind = .collect ∧ rec.slots[j]? = some (.occupied x) ∧ (v.mass = none ∨ v.mass = some x))

theorem LandingRec.Fits.within {rec : LandingRec} {v : Handover} {j : Nat} {x : MassId} (fits : rec.Fits v j x) :
    j < rec.slots.length := by
  obtain ⟨-, st, -⟩ | ⟨-, st, -⟩ := fits
  · exact (List.getElem?_eq_some_iff.1 st).1
  · exact (List.getElem?_eq_some_iff.1 st).1

theorem LandingRec.Fits.mass {rec : LandingRec} {v : Handover} {j : Nat} {x : MassId} (fits : rec.Fits v j x)
    (massed : v.mass ≠ none) : v.mass = some x := by
  obtain ⟨-, -, mass⟩ | ⟨-, -, mass⟩ := fits
  · exact mass
  · exact mass.resolve_left massed

/-- Another handover of the landing uses the slot, or another handover the mass it holds. -/
def State.Used (s : State) (l : LandingId) (rec : LandingRec) (v : Handover) (j : Nat) : Prop :=
  (∃ u ∈ (s.landing l).queue, u.hoist ≠ v.hoist ∧ u.slot = some j) ∨
    ∃ x, rec.slots[j]? = some (.occupied x) ∧ s.InHandover (some v.hoist) x

/-- The mass a handover has at a slot, if the slot is in the state it needs. -/
def State.massAt (s : State) (l : LandingId) (v : Handover) (j : Nat) : Option MassId :=
  match v.kind with
  | .deposit => if s.slotAt l j = .empty then v.mass else none
  | .collect => (s.slotAt l j).holding.filter fun x => v.mass.all (· == x)

/-- A slot as a scan offers it: not passed over, and in the state needed. -/
def State.offered (s : State) (l : LandingId) (v : Handover) (j : Nat) : Option (Nat × MassId) :=
  if s.passedOver l v.hoist j = true then none else (s.massAt l v j).map (j, ·)

theorem SlotState.holding_iff {st : SlotState} {m : MassId} : st.holding = some m ↔ st = .occupied m := by
  cases st <;> simp [SlotState.holding]

section

variable (s : State) (l : LandingId) {v : Handover} (j : Nat)

theorem State.massAt_deposit (kind : v.kind = .deposit) :
    s.massAt l v j = if s.slotAt l j = .empty then v.mass else none := by
  unfold State.massAt
  rw [kind]

theorem State.massAt_collect (kind : v.kind = .collect) (mass : v.mass = none) :
    s.massAt l v j = (s.slotAt l j).holding := by
  unfold State.massAt
  rw [kind, mass]
  cases (s.slotAt l j).holding <;> rfl

theorem State.massAt_named {m : MassId} (kind : v.kind = .collect) (mass : v.mass = some m) :
    s.massAt l v j = if s.slotAt l j = .occupied m then some m else none := by
  unfold State.massAt
  rw [kind, mass]
  cases s.slotAt l j with
  | occupied x =>
    by_cases e : m = x
    · subst e
      simp [SlotState.holding]
    · simp [SlotState.holding, e, Ne.symm e]
  | _ => rfl

end

/-- The choice is the slot named, the lowest slot that holds the mass named, or the first slot a scan offers. -/
theorem State.chooseSlot_by (s : State) (l : LandingId) (rec : LandingRec) (v : Handover) :
    s.chooseSlot l rec v =
      match v.slot with
      | some j => (s.massAt l v j).map (j, ·)
      | none =>
        if v.kind = .collect ∧ v.mass ≠ none then
          (List.range rec.slots.length).findSome? fun j => (s.massAt l v j).map (j, ·)
        else rec.scan.findSome? (s.offered l v) := by
  unfold State.chooseSlot
  cases kind : v.kind with
  | deposit =>
    have scans : ¬(TransferKind.deposit = .collect ∧ v.mass ≠ none) := fun both => nomatch both.1
    rw [if_neg scans]
    cases mass : v.mass with
    | none =>
      have nothing : ∀ j, s.massAt l v j = none := fun j => by rw [s.massAt_deposit l j kind, mass, ite_self]
      unfold State.offered
      simp only [nothing]
      cases v.slot <;> simp [List.findSome?_eq_none_iff.2]
    | some m =>
      cases v.slot with
      | none =>
        dsimp only
        have offers : s.offered l v = fun j =>
            if (s.slotAt l j == .empty && !s.passedOver l v.hoist j) = true then some (j, m) else none := by
          funext j
          unfold State.offered
          rw [s.massAt_deposit l j kind, mass]
          by_cases e : s.slotAt l j = .empty <;> cases s.passedOver l v.hoist j <;> simp [e]
        rw [offers, ← find?_with]
        cases List.find? _ rec.scan <;> rfl
      | some j =>
        dsimp only
        rw [s.massAt_deposit l j kind, mass]
        split <;> rfl
  | collect =>
    cases mass : v.mass with
    | none =>
      cases v.slot with
      | none =>
        dsimp only
        rw [if_neg fun both => both.2 rfl]
        refine congrArg (rec.scan.findSome? ·) (funext fun j => ?_)
        unfold State.offered
        rw [s.massAt_collect l j kind mass]
      | some j =>
        dsimp only
        rw [s.massAt_collect l j kind mass]
    | some m =>
      cases v.slot with
      | none =>
        dsimp only
        rw [if_pos ⟨rfl, nofun⟩]
        have holds : (fun j => (s.massAt l v j).map (j, ·)) = fun j =>
            if (s.slotAt l j == .occupied m) = true then some (j, m) else none := by
          funext j
          rw [s.massAt_named l j kind mass]
          by_cases e : s.slotAt l j = .occupied m <;> simp [e]
        rw [holds, ← find?_with]
        cases List.find? _ (List.range rec.slots.length) <;> rfl
      | some j =>
        dsimp only
        rw [s.massAt_named l j kind mass]
        split <;> rfl

/-! ### The choice as the statement has it -/

section

variable {s : State} {l : LandingId} {rec : LandingRec} (record : (s.landing l).record = some rec) {v : Handover}

include record

theorem State.slotAt_within {j : Nat} (within : j < rec.slots.length) (st : SlotState) :
    s.slotAt l j = st ↔ rec.slots[j]? = some st := by
  rw [State.slotAt_eq record, List.getElem?_eq_getElem within, Option.getD_some, Option.some.injEq]

theorem State.massAt_iff {j : Nat} (within : j < rec.slots.length) {x : MassId} :
    s.massAt l v j = some x ↔ rec.Fits v j x := by
  unfold LandingRec.Fits
  rw [← State.slotAt_within record within, ← State.slotAt_within record within]
  cases kind : v.kind with
  | deposit =>
    rw [s.massAt_deposit l j kind]
    split <;> simp [*]
  | collect =>
    cases mass : v.mass with
    | none =>
      rw [s.massAt_collect l j kind mass, SlotState.holding_iff]
      simp
    | some m =>
      rw [s.massAt_named l j kind mass]
      split
      · simp [*, eq_comm]
      · refine iff_of_false nofun ?_
        rintro (⟨⟨⟩, -⟩ | ⟨-, st, ⟨⟨⟩⟩ | ⟨⟨⟩⟩⟩)
        exact absurd st ‹_›

theorem State.passedOver_iff {j : Nat} (within : j < rec.slots.length) {x : MassId} (fits : rec.Fits v j x) :
    s.passedOver l v.hoist j = true ↔ s.Used l rec v j := by
  unfold State.passedOver State.Used
  rw [Bool.or_eq_true, List.any_eq_true]
  refine or_congr ?_ ?_
  · simp
  · rcases fits with ⟨-, st, -⟩ | ⟨-, st, -⟩
    · rw [(State.slotAt_within record within _).2 st, st]
      simp [SlotState.names]
    · rw [(State.slotAt_within record within _).2 st, st]
      simp [SlotState.names, State.massInOtherHandover_iff]

theorem State.offered_some {j i : Nat} (within : j < rec.slots.length) {x : MassId} :
    s.offered l v j = some (i, x) ↔ i = j ∧ rec.Fits v j x ∧ ¬s.Used l rec v j := by
  unfold State.offered
  constructor
  · intro e
    split at e
    · cases e
    · obtain ⟨y, at_, same⟩ := Option.map_eq_some_iff.1 e
      cases same
      have fits := (State.massAt_iff record within).1 at_
      exact ⟨rfl, fits, fun used => ‹¬_› ((State.passedOver_iff record within fits).2 used)⟩
  · rintro ⟨rfl, fits, free⟩
    rw [if_neg fun passed => free ((State.passedOver_iff record within fits).1 passed),
      (State.massAt_iff record within).2 fits]
    rfl

theorem State.offered_none {j : Nat} (within : j < rec.slots.length) :
    s.offered l v j = none ↔ s.Used l rec v j ∨ ∀ x, ¬rec.Fits v j x := by
  rw [Option.eq_none_iff_forall_ne_some]
  constructor
  · intro nothing
    by_contra neither
    obtain ⟨free, some_⟩ := not_or.1 neither
    obtain ⟨x, fits⟩ := not_forall_not.1 some_
    exact nothing (j, x) ((State.offered_some record within).2 ⟨rfl, fits, free⟩)
  · rintro either ⟨i, x⟩ e
    obtain ⟨-, fits, free⟩ := (State.offered_some record within).1 e
    exact either.elim free fun unfit => unfit x fits

/-- The slot and mass chosen are the ones the statement describes. -/
theorem State.chooseSlot_iff (sizes : rec.slots.length = 4 ∨ rec.slots.length = 8) (pointer : rec.pointer < rec.slots.length)
    (named : ∀ j, v.slot = some j → j < rec.slots.length) {i : Nat} {m : MassId} :
    s.chooseSlot l rec v = some (i, m) ↔ s.Chooses l rec v i m := by
  rw [State.chooseSlot_by]
  unfold State.Chooses
  cases slot : v.slot with
  | some j =>
    dsimp only
    rw [Option.map_eq_some_iff]
    simp only [State.massAt_iff record (named j slot)]
    constructor
    · rintro ⟨x, fits, ⟨⟩⟩
      exact ⟨rfl, fits⟩
    · rintro ⟨rfl, fits⟩
      exact ⟨m, fits, rfl⟩
  | none =>
    dsimp only
    split
    · rename_i massed
      rw [findSome?_range_some]
      have unfit : ∀ j, j < rec.slots.length → ((s.massAt l v j).map (j, ·) = none ↔ ∀ x, ¬rec.Fits v j x) := by
        intro j within
        rw [Option.map_eq_none_iff, Option.eq_none_iff_forall_ne_some]
        exact forall_congr' fun x => not_congr (State.massAt_iff record within)
      constructor
      · rintro ⟨k, lt, found, first⟩
        obtain ⟨x, at_, ⟨⟩⟩ := Option.map_eq_some_iff.1 found
        exact ⟨(State.massAt_iff record lt).1 at_, fun j before => (unfit j (before.trans lt)).1 (first j before) m⟩
      · rintro ⟨fits, first⟩
        have fits : rec.Fits v i m := fits
        have lt : i < rec.slots.length := LandingRec.Fits.within fits
        refine ⟨i, lt, ?_, fun j before => (unfit j (before.trans lt)).2 fun x other => ?_⟩
        · rw [(State.massAt_iff record lt).2 fits]
          rfl
        · have same := (fits.mass massed.2).symm.trans (other.mass massed.2)
          cases same
          exact first j before other
    · rw [LandingRec.scan_eq, List.findSome?_map, findSome?_range_some]
      refine exists_congr fun n => and_congr_right fun lt => ?_
      have within : ∀ k, k < rec.slots.length → rec.visited k < rec.slots.length := fun k =>
        LandingRec.visited_lt sizes pointer
      rw [Function.comp_apply, State.offered_some record (within n lt), and_assoc, and_assoc]
      refine and_congr_right fun _ => ?_
      subst i
      refine and_congr_right fun _ => and_congr_right fun _ => forall_congr' fun j => forall_congr' fun before => ?_
      exact State.offered_none record (within j (before.trans lt))

end

end Sys2Proof.Machine
end

section
/-! ## O26: two handovers before the arbiter -/

namespace Sys2Proof.Machine

/-! ### The choice once one is marked and the other holds the shuttle -/

/-- What the choice of another handover reads of a handover (R121). -/
def Handover.key (v : Handover) : HoistId × Option Nat × Option MassId := (v.hoist, v.slot, v.mass)

/-- The choice reads the landing's record, and of the queues the hoists, the slots and the masses. -/
theorem State.chooseSlot_keyed {s t : State} {l : LandingId} {rec : LandingRec} {v : Handover}
    (record : (t.landing l).record = (s.landing l).record)
    (keys : ∀ y, (t.landing y).queue.map Handover.key = (s.landing y).queue.map Handover.key) :
    t.chooseSlot l rec v = s.chooseSlot l rec v := by
  have any_keyed : ∀ y (p : HoistId × Option Nat × Option MassId → Bool),
      (t.landing y).queue.any (fun v => p v.key) = (s.landing y).queue.any fun v => p v.key := by
    intro y p
    have both := congrArg (List.any · p) (keys y)
    rwa [List.any_map, List.any_map] at both
  have slots := State.slotAt_congr record
  have masses : ∀ h m, t.massInOtherHandover h m = s.massInOtherHandover h m := by
    intro h m
    unfold State.massInOtherHandover State.handovers
    rw [List.any_flatMap, List.any_flatMap]
    exact congrArg (List.any allLandings) (funext fun y => any_keyed y fun k => k.1 != h && k.2.2 == some m)
  refine State.chooseSlot_congr slots fun i => ?_
  unfold State.passedOver
  rw [slots]
  simp only [masses]
  exact congrArg (· || _) (any_keyed l fun k => k.1 != v.hoist && k.2.1 == some i)

/-! ### A loser (R126) -/

/-- A handover left waiting. -/
def Handover.passedBy (v : Handover) : Handover := { v with waited := true }

theorem State.markWaited_eq (s : State) (l : LandingId) (h : HoistId) :
    s.markWaited l h =
      (s.setLanding l { s.landing l with queue := changeOf h Handover.passedBy (s.landing l).queue }).setHoist h
        { s.hoist h with move := (s.hoist h).move.map fun x => { x with waited := true } } := by
  unfold State.markWaited State.modHoist Hoist.setWaited
  rw [Hoist.modMove_eq]
  rfl

theorem State.prefers_iff {s : State} {v w : Handover} :
    s.prefers v w = true ↔ (s.hoist w.hoist).precedence < (s.hoist v.hoist).precedence ∨
      ((s.hoist v.hoist).precedence = (s.hoist w.hoist).precedence ∧ w.hoist < v.hoist) := by
  unfold State.prefers
  rw [Bool.or_eq_true, Bool.and_eq_true, decide_eq_true_iff, decide_eq_true_iff, beq_iff_eq]

theorem State.prefers_asymm {s : State} {v w : Handover} (better : s.prefers v w = true) : s.prefers w v = false := by
  rw [← Bool.not_eq_true, State.prefers_iff]
  rw [State.prefers_iff] at better
  rintro (less' | ⟨same', less'⟩)
  · rcases better with less | ⟨same, -⟩
    · exact lt_asymm less less'
    · exact less'.ne same
  · rcases better with less | ⟨-, less⟩
    · exact less.ne same'
    · exact lt_asymm less less'

/-- Of two that wait, the preferred one is granted and the other marked, in whichever order they stand (R126). -/
theorem State.arbiterFor_two {s : State} {l : LandingId} {v w : Handover} (free : (s.landing l).shuttleFree = true)
    (queue : (s.landing l).queue = [v, w] ∨ (s.landing l).queue = [w, v]) (ne : v.hoist ≠ w.hoist)
    (waits : v.phase = .waiting) (waits' : w.phase = .waiting) (better : s.prefers v w = true) (n : Nat) :
    State.arbiterFor l (n + 1) s = State.arbiterFor l n ((s.markWaited l w.hoist).grant l v) := by
  have worse := State.prefers_asymm better
  rw [State.arbiterFor, if_pos free]
  rcases queue with queue | queue
  · rw [queue]
    simp [waits, waits', worse, Ne.symm ne]
  · rw [queue]
    simp [waits, waits', better, Ne.symm ne]

/-! ### The one left (R127) -/

theorem State.latched_handover (s : State) : (s.latch .handover).latched.getLsbD 2 = true := by
  change (s.latched ||| 4#13).getLsbD 2 = true
  rw [BitVec.getLsbD_or, Bool.or_eq_true]
  exact .inr rfl

/-- The turn of a handover that waits alone: granted, or closed with the shuttle free (R126, R127). -/
theorem State.arbiterFor_last {s : State} {l : LandingId} {rec : LandingRec} {w : Handover}
    (free : (s.landing l).shuttleFree = true) (queue : (s.landing l).queue = [w]) (waits : w.phase = .waiting)
    (record : (s.landing l).record = some rec) :
    let t := State.arbiterFor l 1 s
    (∀ x ∈ (t.landing l).queue, x.hoist = w.hoist ∧ x.phase = .latching ∧ x.slot.isSome = true) ∧
      (∀ y, y ≠ w.hoist → t.hoist y = s.hoist y) ∧ (s.latched.getLsbD 2 = true → t.latched.getLsbD 2 = true) ∧
      t.masses = s.masses ∧ ((t.landing l).queue = [] → (t.landing l).holder = .none ∧ t.outbox = s.outbox) ∧
      ((t.landing l).queue ≠ [] → (t.landing l).holder = .handover w.hoist) := by
  intro t
  have turn : t = s.grant l w := State.arbiterFor_one free (by rw [queue]; simp [waits]) 0
  obtain ⟨none_, -⟩ := Landing.shuttleFree_iff.1 free
  cases chosen : (s.modLanding l fun x => { x with holder := .handover w.hoist }).chooseSlot l rec w with
  | none =>
    obtain ⟨r', closed, -⟩ := (s.latch .handover).removeHandover_closes l w.hoist
    rw [State.grant_lost record none_ chosen, closed] at turn
    have here : t.landing l = (s.landing l).without w.hoist := by
      rw [turn]
      exact State.setLanding_landing_self ..
    have empty : ((s.landing l).without w.hoist).queue = [] := by
      unfold Landing.without
      rw [queue]
      simp
    have holder : ((s.landing l).without w.hoist).holder = .none := by
      unfold Landing.without
      rw [none_]
      rfl
    rw [here, empty, holder]
    refine ⟨nofun, fun y ne => ?_, fun _ => ?_, ?_, fun _ => ⟨rfl, ?_⟩, fun some_ => absurd rfl some_⟩
    · rw [turn]
      exact State.setHoist_hoist_ne _ ne _
    · rw [turn]
      exact s.latched_handover
    · rw [turn]
      rfl
    · rw [turn]
      rfl
  | some c =>
    obtain ⟨i, m⟩ := c
    rw [State.grant_found record chosen] at turn
    have here : t.landing l = ((s.landing l).latching (w.granted s i m)).slotted i (.reserved m) := by
      rw [turn, State.landing_give]
      exact State.setLanding_landing_self ..
    have alone : (t.landing l).queue = [w.granted s i m] := by
      rw [here]
      unfold Landing.slotted Landing.latching
      rw [queue]
      exact congrArg (List.cons · []) (if_pos rfl)
    have holder : (t.landing l).holder = .handover w.hoist := by
      rw [here]
      rfl
    rw [alone, holder]
    refine ⟨fun x inside => ?_, fun y _ => ?_, fun before => ?_, ?_, nofun, fun _ => rfl⟩
    · rw [List.mem_singleton.1 inside]
      exact ⟨rfl, rfl, rfl⟩
    · rw [turn]
      rfl
    · rw [turn]
      exact before
    · rw [turn]
      rfl

/-! ### IDLE with two that wait -/

/-- The state in which the winner of an IDLE shuttle is granted: the report taken in and the loser marked (R122, R126). -/
def State.contestedBy (s : State) (l : LandingId) (h : HoistId) : State := (s.reportedBy l .idle).markWaited l h

section

variable (s : State) (l : LandingId) (h : HoistId)

theorem State.contestedBy_eq :
    s.contestedBy l h =
      ((s.received .field).setLanding l
          { s.landing l with shuttle := .idle, queue := changeOf h Handover.passedBy (s.landing l).queue }).setHoist h
        { s.hoist h with move := (s.hoist h).move.map fun x => { x with waited := true } } := by
  unfold State.contestedBy
  rw [State.markWaited_eq, State.landing_reportedBy]
  unfold State.reportedBy
  rw [State.setLanding_setLanding]
  rfl

theorem State.landing_contestedBy (y : LandingId) :
    (s.contestedBy l h).landing y =
      if y = l then { s.landing l with shuttle := .idle, queue := changeOf h Handover.passedBy (s.landing l).queue }
      else s.landing y := by
  rw [State.contestedBy_eq]
  exact State.landing_setLanding ..

theorem State.hoist_contestedBy {y : HoistId} (ne : y ≠ h) : (s.contestedBy l h).hoist y = s.hoist y := by
  rw [State.contestedBy_eq]
  exact State.setHoist_hoist_ne _ ne _

/-- The mark and the shuttle held leave the choice as it was before the report. -/
theorem State.chooseSlot_contestedBy (rec : LandingRec) (v : Handover) :
    ((s.contestedBy l h).modLanding l fun x => { x with holder := .handover v.hoist }).chooseSlot l rec v =
      s.chooseSlot l rec v := by
  have landing : ∀ y, ((s.contestedBy l h).modLanding l fun x => { x with holder := .handover v.hoist }).landing y =
      if y = l then { s.landing l with
        shuttle := .idle, holder := .handover v.hoist, queue := changeOf h Handover.passedBy (s.landing l).queue }
      else s.landing y := by
    intro y
    rw [State.landing_modLanding]
    split
    · rw [State.landing_contestedBy, if_pos rfl]
    · rw [State.landing_contestedBy, if_neg ‹_›]
  refine State.chooseSlot_keyed (by rw [landing, if_pos rfl]) fun y => ?_
  rw [landing]
  split
  · rename_i same
    subst same
    rw [List.map_map]
    refine List.map_congr_left fun x _ => ?_
    rw [Function.comp_apply]
    split <;> rfl
  · rfl

end

section

variable {s : State} {l : LandingId} {rec : LandingRec} {v w : Handover} {k : HoistConfig}
  (record : (s.landing l).record = some rec) (queue : (s.landing l).queue = [v, w] ∨ (s.landing l).queue = [w, v])
  (ne : v.hoist ≠ w.hoist)

include record queue ne

/-- The winner's grant, where a slot is found (R127). -/
theorem State.grant_contested (config : (s.hoist v.hoist).config = some k) {i : Nat} {m : MassId}
    (chosen : s.chooseSlot l rec v = some (i, m)) :
    (s.contestedBy l w.hoist).grant l v =
      (((s.received .field).setLanding l
          { s.landing l with
            shuttle := .idle
            holder := .handover v.hoist
            record := some { rec with slots := rec.slots.set i (.reserved m) }
            queue := (s.landing l).queue.map fun x =>
              if x.hoist = v.hoist then v.granted s i m else { w with waited := true } }).setHoist w.hoist
        { s.hoist w.hoist with move := (s.hoist w.hoist).move.map fun x => { x with waited := true } }).give
        .field (requestFrame rec k 1 i).2 := by
  have marked := s.landing_contestedBy l w.hoist l
  rw [if_pos rfl] at marked
  have side : byte ((s.contestedBy l w.hoist).hoist v.hoist).side = if k.compartment = .a then 0 else 1 := by
    unfold Hoist.side
    rw [s.hoist_contestedBy l w.hoist ne, config]
    exact (compartmentByte_eq _).symm
  have changed : (changeOf w.hoist Handover.passedBy (s.landing l).queue).map (fun x =>
        if x.hoist = v.hoist then v.granted s i m else x) =
      (s.landing l).queue.map fun x => if x.hoist = v.hoist then v.granted s i m else { w with waited := true } := by
    have other : w.passedBy.hoist ≠ v.hoist := Ne.symm ne
    rcases queue with queue | queue <;> rw [queue] <;> simp [changeOf, ne, Ne.symm ne, other] <;> rfl
  have landing : (Landing.latching { s.landing l with
        shuttle := .idle, queue := changeOf w.hoist Handover.passedBy (s.landing l).queue }
        (v.granted (s.contestedBy l w.hoist) i m)).slotted i (.reserved m) =
      { s.landing l with
        shuttle := .idle
        holder := .handover v.hoist
        record := some { rec with slots := rec.slots.set i (.reserved m) }
        queue := (s.landing l).queue.map fun x =>
          if x.hoist = v.hoist then v.granted s i m else { w with waited := true } } := by
    rw [← changed, State.contestedBy_eq]
    unfold Landing.slotted Landing.latching
    rw [record]
    rfl
  rw [State.grant_found (by rw [marked]; exact record) ((s.chooseSlot_contestedBy l w.hoist rec v).trans chosen), marked,
    side, landing, State.contestedBy_eq, State.setLanding_setHoist, State.setLanding_setLanding]
  rfl

/-- The winner's close, where none is found: the other is left, and the shuttle free for it (R127, R131). -/
theorem State.grant_contested_lost (holder : (s.landing l).holder = .none) (lost : s.chooseSlot l rec v = none) :
    ∃ r', (s.contestedBy l w.hoist).grant l v =
        (((s.contestedBy l w.hoist).latch .handover).setLanding l
          { s.landing l with shuttle := .idle, queue := [w.passedBy] }).setHoist v.hoist r' ∧
      ((s.hoist v.hoist).state = .docked → r'.state = .ready) := by
  have marked := s.landing_contestedBy l w.hoist l
  rw [if_pos rfl] at marked
  obtain ⟨r', closed, ready, -⟩ := ((s.contestedBy l w.hoist).latch .handover).removeHandover_closes l v.hoist
  rw [State.hoist_latch, s.hoist_contestedBy l w.hoist ne] at ready
  have left : Landing.without { s.landing l with
      shuttle := .idle, queue := changeOf w.hoist Handover.passedBy (s.landing l).queue } v.hoist =
      { s.landing l with shuttle := .idle, queue := [w.passedBy] } := by
    unfold Landing.without
    have other : w.passedBy.hoist ≠ v.hoist := Ne.symm ne
    rcases queue with queue | queue <;> rw [queue] <;> simp [changeOf, holder, ne, other]
  rw [State.landing_latch, marked, left] at closed
  refine ⟨r', ?_, fun docked => (ready docked).1⟩
  rw [State.grant_lost (by rw [marked]; exact record) (by rw [marked]; exact holder)
    ((s.chooseSlot_contestedBy l w.hoist rec v).trans lost), closed]

end

/-- Settles O26: the arbiter's two turns, the first the preferred handover's. -/
theorem arbiterGrantsByPrecedence : Obligations.ArbiterGrantsByPrecedence := by
  intro a b s l rec v w k running station few state at_ record holder queue ne waits waits' config better sizes pointer named
    forward
  have idle : shuttleStateOf b.state = .idle := by rw [state]; rfl
  have here := s.landing_reportedBy l .idle
  have length : ((s.reportedBy l .idle).landing l).queue.length = 1 + 1 := by
    rw [here]
    rcases queue with queue | queue <;> rw [queue] <;> rfl
  have free : ((s.reportedBy l .idle).landing l).shuttleFree = true := by
    rw [here, Landing.shuttleFree_iff]
    exact ⟨holder, rfl⟩
  have next := shuttleReport_next running station few at_
  rw [State.takeShuttleReport_free holder, idle, State.arbiter, length,
    State.arbiterFor_two free (by rw [here]; exact queue) ne waits waits' (State.prefers_iff.2 better)] at next
  change exec _ s = .next (State.give (State.arbiterFor l 1 ((s.contestedBy l w.hoist).grant l v)) .uplink _) at next
  have chooses : ∀ i m, s.chooseSlot l rec v = some (i, m) ↔ s.Chooses l rec v i m := fun i m =>
    State.chooseSlot_iff record sizes pointer fun j e => named j (.inl e)
  refine ⟨fun i m chosen => ?_, fun nothing => ?_⟩
  · rw [next, State.grant_contested record queue ne config ((chooses i m).2 chosen), State.arbiterFor_taken]
    · unfold State.give
      dsimp only
      rw [List.append_assoc]
      rfl
    · rw [State.landing_give, State.landing_setHoist, State.setLanding_landing_self]
      rfl
  · have lost : s.chooseSlot l rec v = none :=
      Option.eq_none_iff_forall_ne_some.2 fun c e => nothing c.1 c.2 ((chooses ..).1 e)
    obtain ⟨r', turn, ready⟩ := State.grant_contested_lost record queue ne holder lost
    generalize (s.contestedBy l w.hoist).grant l v = u at next turn
    have left : u.landing l = { s.landing l with shuttle := .idle, queue := [w.passedBy] } := by
      rw [turn, State.landing_setHoist, State.setLanding_landing_self]
    obtain ⟨queued, others, bit, masses, closed, granted⟩ := State.arbiterFor_last (s := u) (w := w.passedBy)
      (by rw [left, Landing.shuttleFree_iff]; exact ⟨holder, rfl⟩) (by rw [left]) waits' (by rw [left]; exact record)
    refine ⟨_, next, queued, fun docked => ?_, bit ?_, masses.trans ?_, fun empty => ?_, granted⟩
    · rw [State.hoist_give, others v.hoist ne, turn, State.setHoist_hoist_self]
      exact ready docked
    · rw [turn]
      exact State.latched_handover _
    · rw [turn, State.contestedBy_eq]
      rfl
    · obtain ⟨none_, outbox⟩ := closed empty
      refine ⟨none_, congrArg (· ++ [forward]) (outbox.trans ?_)⟩
      rw [turn, State.contestedBy_eq]
      rfl

end Sys2Proof.Machine
end

section
/-! ## O52: a weighing -/

namespace Sys2Proof.Machine

theorem Hoist.netLoad_eq {r : Hoist} {l : Latest} {k : HoistConfig} (latest : r.latest = some l)
    (config : r.config = some k) : r.netLoad = l.load - k.tare := by
  unfold Hoist.netLoad Hoist.tare
  rw [latest, config]

theorem outOfTolerance_iff {nominal tolerance net : Nat} :
    outOfTolerance nominal tolerance net = true ↔ ¬((net : Int) - nominal).natAbs ≤ nominal * tolerance / 100 := by
  unfold outOfTolerance
  rw [decide_eq_true_eq, Nat.not_le]

/-- A hoist once it is weighed: what it carries is settled, and its flag is cleared (R151). -/
def State.weighedAs (s : State) (h : HoistId) (x : Carried) : State :=
  s.setHoist h { s.hoist h with carried := x, weighPending := false }

section

variable {s : State} {h : HoistId}

theorem State.setCarried_setWeighPending (s : State) (h : HoistId) (x : Carried) :
    (s.setCarried h x).setWeighPending h false = s.weighedAs h x := s.modHoist_modHoist h _ _

/-- Where the carried state stands, the flag alone is written. -/
theorem State.setWeighPending_eq {x : Carried} (carried : (s.hoist h).carried = x) :
    s.setWeighPending h false = s.weighedAs h x := by
  subst carried
  rfl

section Light

variable (light : (s.hoist h).netLoad < Config.emptyThreshold)

include light

theorem State.weigh_light_none (carried : (s.hoist h).carried = .none) : s.weigh h = s.weighedAs h .none := by
  unfold State.weigh
  dsimp only
  rw [if_pos light, carried]
  exact State.setWeighPending_eq carried

theorem State.weigh_light_mass {m : MassId} (carried : (s.hoist h).carried = .mass m) :
    s.weigh h =
      ((s.weighedAs h .none).setMass m { s.mass m with status := .uncertain none }).latchedBit 32 := by
  unfold State.weigh
  dsimp only
  rw [if_pos light, carried, ← State.setCarried_setWeighPending]
  rfl

theorem State.weigh_light_unknown (carried : (s.hoist h).carried = .unknownLoad) :
    s.weigh h = (s.weighedAs h .none).latchedBit 32 := by
  unfold State.weigh
  dsimp only
  rw [if_pos light, carried, ← State.setCarried_setWeighPending]
  rfl

end Light

section Loaded

variable (loaded : Config.emptyThreshold ≤ (s.hoist h).netLoad)

include loaded

theorem State.weigh_loaded_unrecorded (carried : (s.hoist h).carried = .none ∨ (s.hoist h).carried = .unknownLoad) :
    s.weigh h = (s.weighedAs h .unknownLoad).latchedBit 32 := by
  unfold State.weigh
  dsimp only
  rw [if_neg (Nat.not_lt.2 loaded)]
  rcases carried with carried | carried
  · rw [carried, ← State.setCarried_setWeighPending]
    rfl
  · rw [carried, ← State.setWeighPending_eq carried]
    rfl

theorem State.weigh_loaded_mass {m : MassId} {n : Nat} (carried : (s.hoist h).carried = .mass m)
    (nominal : (s.mass m).nominal = some n) :
    let u := (s.weighedAs h (.mass m)).setMass m
      { s.mass m with measured := some (s.hoist h).netLoad, status := .placed (.hoist h) }
    s.weigh h =
      if outOfTolerance n s.timers.weightTolerance (s.hoist h).netLoad = true then u.latchedBit 32 else u := by
  intro u
  unfold State.weigh
  dsimp only
  rw [if_neg (Nat.not_lt.2 loaded), carried]
  dsimp only
  rw [nominal, Option.getD_some, show u = State.setMass (s.weighedAs h (.mass m)) m _ from rfl,
    ← State.setWeighPending_eq carried]
  exact apply_ite (State.setWeighPending · h false) ..

end Loaded

end

/-- Settles O52: by the empty threshold, then by what the records say the hoist carries. -/
theorem weighingSettlesTheLoad : Obligations.WeighingSettlesTheLoad := by
  intro s h l k latest config net t
  have same : (s.hoist h).netLoad = net := Hoist.netLoad_eq latest config
  refine ⟨fun light => ?_, fun loaded => ?_⟩
  · rw [← same] at light
    exact ⟨State.weigh_light_none light, fun m => State.weigh_light_mass light, State.weigh_light_unknown light⟩
  · rw [← same] at loaded
    refine ⟨State.weigh_loaded_unrecorded loaded, fun m n carried nominal => ?_⟩
    intro u close
    have weighed := State.weigh_loaded_mass loaded carried nominal
    rw [same] at weighed
    refine ⟨fun within => ?_, fun beyond => ?_⟩
    · exact weighed.trans (if_neg fun out => outOfTolerance_iff.1 out within)
    · exact weighed.trans (if_pos (outOfTolerance_iff.2 beyond))

end Sys2Proof.Machine
end

section
/-! ## O49: VERIFY -/

namespace Sys2Proof.Machine

theorem State.servesUnsupervised_iff {s : State} {rec : LandingRec} :
    s.servesUnsupervised rec = true ↔ ¬∀ c, rec.serves c = true → (s.comp c).state = .supervised := by
  have all : (∀ c, rec.serves c = true → (s.comp c).state = .supervised) →
      s.servesUnsupervised rec = false := by
    intro all
    unfold State.servesUnsupervised
    rw [Bool.or_eq_false_iff, Bool.and_eq_false_imp, Bool.and_eq_false_imp, Bool.not_eq_false', Bool.not_eq_false']
    exact ⟨fun e => State.supervised_iff.2 (all .a e), fun e => State.supervised_iff.2 (all .b e)⟩
  rw [← Bool.not_eq_false, not_iff_not]
  exact ⟨State.servesUnsupervised_eq_false, all⟩

section

variable {s : State} {b : Byte} {l : LandingId} {rec : LandingRec} (found : s.definedLanding b = some (l, rec))

include found

theorem State.verify_scope (out : s.servesUnsupervised rec = true) : s.verify b = s.refuse .scope := by
  unfold State.verify
  rw [found]
  exact if_pos out

variable (in_ : ¬s.servesUnsupervised rec = true)

include in_

theorem State.verify_busy (busy : (s.landing l).queue ≠ [] ∨ (s.landing l).survey = true ∨
    (s.landing l).shuttleFree = false) : s.verify b = s.refuse .busy := by
  unfold State.verify
  rw [found]
  dsimp only
  rw [if_neg in_, if_pos busy]

theorem State.verify_accepted (free : ¬((s.landing l).queue ≠ [] ∨ (s.landing l).survey = true ∨
    (s.landing l).shuttleFree = false)) : s.verify b = (s.startSurvey l rec).accept := by
  unfold State.verify
  rw [found]
  dsimp only
  rw [if_neg in_, if_neg free]

end

/-- What an accepted VERIFY leaves: the survey, and its request to the station of the landing (R152). -/
theorem State.startSurvey_eq {s : State} {l : LandingId} {rec : LandingRec}
    (record : (s.landing l).record = some rec) :
    s.startSurvey l rec =
      { s.setLanding l
          { s.landing l with
            survey := true
            holder := .survey
            surveyTimer := some (s.now + 1000 * s.timers.surveyLimit) } with
        outbox := s.outbox ++ [(.field, makeFrame (byte rec.station) kindShuttleReq
          [5, if rec.servesA = true then 0 else 1, 0])] } := by
  have side : byte rec.lowest.code = if rec.servesA = true then 0 else 1 := by
    unfold LandingRec.lowest
    split <;> rfl
  have station : (s.landing l).stationByte = byte rec.station := by
    unfold Landing.stationByte
    rw [record]
  rw [← side, ← station]
  unfold State.startSurvey State.request
  rw [State.modLanding_landing_self]
  rfl

/-- Settles O49, check by check. -/
theorem verifyStartsASurvey : Obligations.VerifyStartsASurvey := by
  intro o b s l rec takes number record free allIn
  have found : (s.received .uplink).definedLanding b = some (l, rec) := State.definedLanding_eq number record
  have scope : (s.received .uplink).servesUnsupervised rec = true ↔ ¬allIn :=
    State.servesUnsupervised_iff (s := s.received .uplink)
  have busy : ((s.landing l).queue ≠ [] ∨ (s.landing l).survey = true ∨ (s.landing l).shuttleFree = false) ↔ ¬free := by
    rw [← Bool.not_eq_true, Landing.shuttleFree_iff, ← Bool.not_eq_false, ← not_and_or, ← not_and_or]
  refine ⟨fun out => ?_, fun inside taken => ?_, fun inside free => ?_⟩
  · exact order_answered takes (State.verify_scope found (scope.2 out))
  · exact order_answered takes (State.verify_busy found (mt scope.1 (not_not.2 inside)) (busy.2 taken))
  · refine order_answered takes
      ((State.verify_accepted found (mt scope.1 (not_not.2 inside)) (mt busy.1 (not_not.2 free))).trans ?_)
    rw [State.startSurvey_eq (s := s.received .uplink) record]
    rfl

end Sys2Proof.Machine
end

section
/-! ## O27: a survey that fails -/

namespace Sys2Proof.Machine

/-- A landing whose survey has ended (R153). -/
def Landing.unsurveyed (x : Landing) : Landing := { x with survey := false, surveyTimer := none, holder := .none }

/-- The end of a survey that no handover waits for (R153, R126). -/
theorem State.endSurvey_eq {s : State} {l : LandingId} (nobody : ∀ v ∈ (s.landing l).queue, v.phase ≠ .waiting) :
    s.endSurvey l = s.setLanding l (s.landing l).unsurveyed := by
  refine State.arbiterFor_nobody (List.filter_eq_nil_iff.2 fun v inside waits => ?_) _
  rw [State.modLanding_landing_self] at inside
  exact nobody v inside (beq_iff_eq.1 waits)

theorem State.surveyFailure_eq {s : State} {l : LandingId} (nobody : ∀ v ∈ (s.landing l).queue, v.phase ≠ .waiting) :
    s.surveyFailure l = (s.setLanding l (s.landing l).unsurveyed).latchedBit 16 :=
  State.endSurvey_eq (s := s.latch .verify) nobody

theorem shuttleStateOf_done {x : Byte} (e : x = 3) : shuttleStateOf x = .done := by
  rw [e]
  rfl

/-- The codes below DONE. -/
theorem shuttleStateOf_low {x : Byte} (low : x.toNat ≤ 2) :
    shuttleStateOf x = if x = 0 then .idle else if x = 1 then .latched else .busy := by
  have two : x ≠ 0 → x ≠ 1 → x = 2 := by bv_omega
  unfold shuttleStateOf
  split
  · rfl
  · split
    · rfl
    · rw [if_pos (two ‹_› ‹_›)]

section

variable {s : State} {l : LandingId} {rec : LandingRec} {codes : List Byte}

/-- A SHUTTLE_REPORT handed to the survey that holds the shuttle (R153). -/
theorem State.takeShuttleReport_survey {w : ShuttleWire} (holder : (s.landing l).holder = .survey) :
    (s.received .field).takeShuttleReport l w =
      (s.reportedBy l (shuttleStateOf w.state)).reportToSurvey l (shuttleStateOf w.state) w.survey := by
  have taken : (s.received .field).modLanding l (fun x => { x with shuttle := shuttleStateOf w.state }) =
    s.reportedBy l (shuttleStateOf w.state) := rfl
  unfold State.takeShuttleReport
  dsimp only
  rw [taken, State.landing_reportedBy]
  dsimp only
  rw [holder]

theorem Landing.slotCount_eq {x : Landing} (record : x.record = some rec) : x.slotCount = rec.slots.length := by
  unfold Landing.slotCount
  rw [record]

/-- DONE with a code for every slot (R153, R154). -/
theorem State.reportToSurvey_done (record : (s.landing l).record = some rec) (enough : rec.slots.length ≤ codes.length) :
    s.reportToSurvey l .done codes = (s.reconcile l (codes.take rec.slots.length)).endSurvey l := by
  unfold State.reportToSurvey
  dsimp only
  rw [Landing.slotCount_eq record, if_pos enough]

/-- DONE with too few codes, and FAULT (R153). -/
theorem State.reportToSurvey_fails {st : ShuttleState} (record : (s.landing l).record = some rec)
    (fails : st = .done ∧ codes.length < rec.slots.length ∨ st = .fault) :
    s.reportToSurvey l st codes = s.surveyFailure l := by
  unfold State.reportToSurvey
  dsimp only
  rcases fails with ⟨rfl, few⟩ | rfl
  · dsimp only
    rw [Landing.slotCount_eq record, if_neg (Nat.not_le.2 few)]
  · rfl

/-- IDLE, LATCHED and BUSY (R153). -/
theorem State.reportToSurvey_goes_on {st : ShuttleState} (low : st = .idle ∨ st = .latched ∨ st = .busy) :
    s.reportToSurvey l st codes = s := by
  rcases low with rfl | rfl | rfl <;> rfl

end

/-- Settles O27: the failures by report, the reports that a survey outlasts, and the timer. -/
theorem surveyFailureChangesNoRecord : Obligations.SurveyFailureChangesNoRecord := by
  intro s l running
  have expires : exec (.surveyTimerExpiry l) s =
      .next (expiry s (s.landing l).surveyTimer fun s => s.surveyFailure l) := by
    change execSurveyTimerExpiry l s = _
    unfold execSurveyTimerExpiry
    rw [event_free s _ running]
  refine ⟨fun a w rec station few at_ record holder queue => ?_, fun e runs due nobody => ?_, fun early => ?_⟩
  · intro st
    have next := shuttleReport_next running station few at_
    rw [State.takeShuttleReport_survey holder] at next
    refine ⟨fun fails => ?_, fun low => ?_⟩
    · have code : shuttleStateOf w.state = st ∧
          (st = .done ∧ w.survey.length < rec.slots.length ∨ st = .fault) := by
        rcases fails with ⟨done, few⟩ | fault
        · have st_done : st = .done := if_pos done
          exact ⟨(shuttleStateOf_done done).trans st_done.symm, .inl ⟨st_done, few⟩⟩
        · have st_fault : st = .fault := if_neg fun done => absurd fault (by rw [done]; decide)
          exact ⟨(shuttleStateOf_fault fault).trans st_fault.symm, .inr st_fault⟩
      have record' : ((s.reportedBy l st).landing l).record = some rec := (State.record_reportedBy ..).trans record
      have nobody : ∀ v ∈ ((s.reportedBy l st).landing l).queue, v.phase ≠ .waiting := by
        rw [State.queue_reportedBy, queue]
        exact fun _ => nofun
      rw [next, code.1, State.reportToSurvey_fails record' code.2, State.surveyFailure_eq nobody,
        State.landing_reportedBy]
      unfold State.reportedBy
      rw [State.setLanding_setLanding]
      rfl
    · have code := shuttleStateOf_low low
      have goes_on : shuttleStateOf w.state = .idle ∨ shuttleStateOf w.state = .latched ∨
          shuttleStateOf w.state = .busy := by
        rw [code]
        split
        · exact .inl rfl
        · split
          · exact .inr (.inl rfl)
          · exact .inr (.inr rfl)
      rw [next, State.reportToSurvey_goes_on goes_on, code]
      rfl
  · rw [expires, expiry_due s _ runs due, State.surveyFailure_eq nobody]
    rfl
  · rw [expires, expiry_not s _ early]

end Sys2Proof.Machine
end

section
/-! ## O48: DECLARE_MASS and REMOVE_MASS -/

namespace Sys2Proof.Machine

/-! ### The former place of a mass declared again or removed (R144) -/

/-- The slot a mass leaves when it is declared again or removed. -/
def SlotState.vacated (st : SlotState) (t : MassId) : SlotState :=
  if st = .occupied t then .empty
  else if st = .unverified (some t) then .unverified none
  else if st = .blocked (some t) then .blocked none
  else st

theorem SlotState.vacate_eq (st : SlotState) (t : MassId) : st.vacate t = st.vacated t := by
  unfold SlotState.vacate SlotState.vacated
  split
  case h_1 x => by_cases e : x = t <;> simp [e]
  case h_2 x => by_cases e : x = t <;> simp [e]
  case h_3 x => by_cases e : x = t <;> simp [e]
  all_goals simp

/-- A slot is written with what is made of its state; beyond the slots there is nothing to make. -/
theorem State.slotAt_setSlot_made (s : State) (l : LandingId) (i : Nat) (f : SlotState → SlotState)
    (empty : f .empty = .empty) (y : LandingId) (j : Nat) :
    (s.setSlot l i (f (s.slotAt l i))).slotAt y j = if y = l ∧ j = i then f (s.slotAt y j) else s.slotAt y j := by
  by_cases here : y = l ∧ j = i
  · obtain ⟨rfl, rfl⟩ := here
    rw [if_pos ⟨rfl, rfl⟩]
    by_cases has : s.HasSlot y j
    · exact State.slotAt_setSlot_self has _
    · have written := State.Rerecords.setSlot s y j (f (s.slotAt y j))
      have none_ : ¬(s.setSlot y j (f (s.slotAt y j))).HasSlot y j := by
        rintro ⟨rec, record, within⟩
        cases old : (s.landing y).record with
        | none =>
          rw [written.undefined y old] at record
          cases record
        | some x =>
          obtain ⟨slots, length, record'⟩ := written.slots y x old
          cases record'.symm.trans record
          exact has ⟨x, old, length ▸ within⟩
      rw [State.slotAt_beyond none_, State.slotAt_beyond has, empty]
  · rw [if_neg here, State.slotAt_setSlot_other s here]

theorem State.Rerecords.vacatePlace (s : State) (t : MassId) : s.Rerecords (s.vacatePlace t) := by
  unfold State.vacatePlace
  split
  · exact .setSlot s _ _ _
  · split
    · exact .setCarried s _ _
    · exact .same s
  · exact .same s

theorem State.hoist_setCarried (s : State) (h : HoistId) (c : Carried) (y : HoistId) :
    (s.setCarried h c).hoist y = { s.hoist y with carried := if y = h then c else (s.hoist y).carried } := by
  unfold State.setCarried
  rw [State.modHoist_hoist]
  split
  · exact ‹y = h› ▸ rfl
  · rfl

section

variable (s : State) (t : MassId)

theorem State.vacatePlace_received (p : Port) : (s.received p).vacatePlace t = (s.vacatePlace t).received p := by
  unfold State.vacatePlace
  rw [State.mass_received]
  cases (s.mass t).status.place with
  | none => rfl
  | some x =>
    cases x with
    | slot l i => cases p <;> rfl
    | hoist h =>
      dsimp only
      rw [State.hoist_received]
      split
      · cases p <;> rfl
      · rfl

theorem State.slotAt_vacatePlace (y : LandingId) (j : Nat) :
    (s.vacatePlace t).slotAt y j =
      if (s.mass t).status.place = some (.slot y j) then (s.slotAt y j).vacated t else s.slotAt y j := by
  unfold State.vacatePlace
  split
  · rename_i l i place
    have here : some (Place.slot l i) = some (.slot y j) ↔ y = l ∧ j = i := by
      rw [Option.some.injEq, Place.slot.injEq, eq_comm, eq_comm (a := i)]
    rw [State.slotAt_setSlot_made s l i (·.vacate t) rfl, place, SlotState.vacate_eq]
    exact if_congr here.symm rfl rfl
  · rename_i h place
    rw [place, if_neg (show some (Place.hoist h) ≠ some (.slot y j) from nofun)]
    split <;> rfl
  · rename_i place
    rw [place, if_neg (show none ≠ some (Place.slot y j) from nofun)]

theorem State.hoist_vacatePlace (y : HoistId) :
    (s.vacatePlace t).hoist y =
      { s.hoist y with
        carried := if (s.mass t).status.place = some (.hoist y) ∧ (s.hoist y).carried = .mass t then .none
          else (s.hoist y).carried } := by
  unfold State.vacatePlace
  split
  · rename_i l i place
    rw [place, if_neg fun both => nomatch both.1]
    rfl
  · rename_i h place
    have here : some (Place.hoist h) = some (.hoist y) ↔ y = h := by
      rw [Option.some.injEq, Place.hoist.injEq, eq_comm]
    simp only [place, here]
    by_cases e : y = h
    · subst e
      by_cases carries : (s.hoist y).carried = .mass t
      · rw [if_pos carries, if_pos ⟨rfl, carries⟩, State.hoist_setCarried, if_pos rfl]
      · rw [if_neg carries, if_neg fun both => carries both.2]
    · have elsewhere : ¬(y = h ∧ (s.hoist y).carried = .mass t) := fun both => e both.1
      rw [if_neg elsewhere]
      split
      · rw [State.hoist_setCarried, if_neg e]
      · rfl
  · rename_i place
    rw [place, if_neg fun both => nomatch both.1]

theorem State.mass_vacatePlace (x : MassId) : (s.vacatePlace t).mass x = s.mass x := by
  unfold State.vacatePlace
  split
  · rfl
  · split <;> rfl
  · rfl

/-- The mass as it is removed (R145). -/
def State.removed : State := (s.vacatePlace t).setMass t .initial

theorem State.Rerecords.removed : s.Rerecords (s.removed t) :=
  (State.Rerecords.vacatePlace s t).andThen (.of_landings rfl)

theorem State.mass_removed (x : MassId) : (s.removed t).mass x = if x = t then .initial else s.mass x := by
  unfold State.removed
  rw [State.mass_setMass, State.mass_vacatePlace]

end

/-! ### A declaration (R144) -/

section

variable (s : State) (m : MassId) (n : Nat)

theorem State.declare_received (p : Place) (q : Port) :
    (s.received q).declare m n p = (s.declare m n p).received q := by
  unfold State.declare
  rw [State.vacatePlace_received]
  cases p <;> cases q <;> rfl

theorem State.Rerecords.declare (p : Place) : s.Rerecords (s.declare m n p) := by
  have written : s.Rerecords ((s.vacatePlace m).modMass m fun _ => ⟨.uncertain (some p), some n, none⟩) :=
    (State.Rerecords.vacatePlace s m).andThen (.of_landings rfl)
  unfold State.declare
  cases p with
  | slot l i => exact written.andThen (.setSlot _ l i _)
  | hoist h => exact written.andThen (.setCarried _ h _)

theorem State.mass_declare (p : Place) (x : MassId) :
    (s.declare m n p).mass x = if x = m then ⟨.uncertain (some p), some n, none⟩ else s.mass x := by
  have written : (s.declare m n p).mass x =
      ((s.vacatePlace m).setMass m ⟨.uncertain (some p), some n, none⟩).mass x := by
    unfold State.declare
    cases p <;> rfl
  rw [written, State.mass_setMass, State.mass_vacatePlace]

/-- The slots: the place given receives the mass, and its former place is vacated. -/
theorem State.slotAt_declare {p : Place} (has : ∀ l i, p = .slot l i → s.HasSlot l i) (y : LandingId) (j : Nat) :
    (s.declare m n p).slotAt y j =
      if p = .slot y j then .unverified (some m)
      else if (s.mass m).status.place = some (.slot y j) then (s.slotAt y j).vacated m
      else s.slotAt y j := by
  rw [← State.slotAt_vacatePlace]
  unfold State.declare
  cases p with
  | hoist h => rfl
  | slot l i =>
    by_cases e : y = l ∧ j = i
    · obtain ⟨rfl, rfl⟩ := e
      rw [if_pos rfl]
      exact State.slotAt_setSlot_self ((has y j rfl).rerecorded
        ((State.Rerecords.vacatePlace s m).andThen (.of_landings rfl))) _
    · rw [if_neg (by rintro ⟨⟩; exact e ⟨rfl, rfl⟩)]
      exact State.slotAt_setSlot_other _ e _

/-- The hoists: what they carry, and nothing else of them. -/
theorem State.hoist_declare (p : Place) (y : HoistId) :
    (s.declare m n p).hoist y =
      { s.hoist y with
        carried := if p = .hoist y then .mass m
          else if (s.mass m).status.place = some (.hoist y) ∧ (s.hoist y).carried = .mass m then .none
          else (s.hoist y).carried } := by
  have left := State.hoist_vacatePlace s m y
  unfold State.declare
  cases p with
  | slot l i => exact left
  | hoist h =>
    have here : Place.hoist h = .hoist y ↔ y = h := by rw [Place.hoist.injEq, eq_comm]
    refine (State.hoist_setCarried ..).trans ?_
    simp only [State.hoist_modMass, left, here]

end

/-! ### The checks (R143, R145) -/

section

variable {s : State}

theorem State.placeSupervised_slot {l : LandingId} {i : Nat}
    (outside : ∀ c, (∃ rec, (s.landing l).record = some rec ∧ rec.serves c = true) → (s.comp c).state ≠ .supervised) :
    s.placeSupervised (.slot l i) = false := by
  unfold State.placeSupervised
  dsimp only
  split
  · rename_i rec record
    have out : ∀ c, rec.serves c = true → s.supervised c = false := fun c serves =>
      Bool.eq_false_iff.2 (mt State.supervised_iff.1 (outside c ⟨rec, record, serves⟩))
    rw [Bool.or_eq_false_iff, Bool.and_eq_false_imp, Bool.and_eq_false_imp]
    exact ⟨out .a, out .b⟩
  · rfl

theorem State.placeSupervised_hoist {h : HoistId}
    (outside : ∀ c, (s.hoist h).inCompartment c = true → (s.comp c).state ≠ .supervised) :
    s.placeSupervised (.hoist h) = false := by
  unfold State.placeSupervised
  dsimp only
  split
  · rename_i k config
    refine Bool.eq_false_iff.2 (mt State.supervised_iff.1 (outside _ ?_))
    unfold Hoist.inCompartment
    rw [config]
    exact beq_self_eq_true _
  · rfl

theorem State.massSupervised_eq_false {m : MassId}
    (outside : ∀ p, (s.mass m).status.place = some p → s.placeSupervised p = false) : s.massSupervised m = false := by
  unfold State.massSupervised
  split
  · exact outside _ ‹_›
  · rfl

theorem State.beyondSlots_slot {l : LandingId} {i : Nat} (has : s.HasSlot l i) : s.beyondSlots (.slot l i) = false := by
  obtain ⟨rec, record, within⟩ := has
  refine decide_eq_false (Nat.not_le.2 ?_)
  rwa [Landing.slotCount_eq record]

theorem State.placeFree_slot {m : MassId} {l : LandingId} {i : Nat}
    (free : s.slotAt l i ∈ [.empty, .unverified none, .unverified (some m), .occupied m]) :
    s.placeFree m (.slot l i) = true := by
  unfold State.placeFree
  simp only [List.mem_cons, List.not_mem_nil, or_false] at free
  rcases free with e | e | e | e <;> simp [e]

theorem State.placeFree_hoist {m : MassId} {h : HoistId} (free : (s.hoist h).carried ∈ [.none, .mass m, .unknownLoad]) :
    s.placeFree m (.hoist h) = true := by
  unfold State.placeFree
  simp only [List.mem_cons, List.not_mem_nil, or_false] at free
  rcases free with e | e | e <;> simp [e]

theorem State.declaredPlace_slot {place slot : Byte} {l : LandingId} {rec : LandingRec} (number : place.toNat = l.val + 1)
    (record : (s.landing l).record = some rec) : s.declaredPlace 0 place slot = .place (.slot l slot.toNat) := by
  unfold State.declaredPlace
  rw [if_pos rfl, State.definedLanding_eq number record]

theorem State.declaredPlace_hoist {place slot : Byte} {h : HoistId} {k : HoistConfig} (number : place.toNat = h.val + 1)
    (config : (s.hoist h).config = some k) : s.declaredPlace 1 place slot = .place (.hoist h) := by
  unfold State.declaredPlace
  rw [if_neg (by decide), if_pos rfl, State.configuredHoist_eq number config]

variable {b : Byte} {m : MassId} (number : b.toNat = m.val + 1) (unsupervised : s.massSupervised m = false)

include number unsupervised

theorem State.declareMass_accepted {n : Nat} {kind place slot : Byte} {p : Place}
    (given : s.declaredPlace kind place slot = .place p) (low : 5000 ≤ n) (high : n ≤ 60000)
    (within : s.beyondSlots p = false) (outside : s.placeSupervised p = false) (free : s.placeFree m p = true) :
    s.declareMass b n kind place slot = (s.declare m n p).accept := by
  unfold State.declareMass
  rw [massOf_iff.2 number, given]
  dsimp only
  rw [within, outside, unsupervised, free, if_neg (not_or.2 ⟨not_not.2 ⟨low, high⟩, nofun⟩),
    if_neg (not_or.2 ⟨nofun, nofun⟩), if_neg nofun]

theorem State.removeMass_absent (absent : (s.mass m).status = .absent) : s.removeMass b = s.acceptWith 0 := by
  unfold State.removeMass
  rw [massOf_iff.2 number]
  dsimp only
  rw [unsupervised, if_neg Bool.false_ne_true, if_pos absent]

theorem State.removeMass_present (present : (s.mass m).status ≠ .absent) :
    s.removeMass b = (s.removed m).acceptWith 1 := by
  unfold State.removeMass
  rw [massOf_iff.2 number]
  dsimp only
  rw [unsupervised, if_neg Bool.false_ne_true, if_neg present]
  rfl

end

/-- Settles O48: each form as a written state, whose slots, hoists and masses are then read. -/
theorem declareAndRemoveMass : Obligations.DeclareAndRemoveMass := by
  intro o b m s takes number former served outside vacated changed formerly
  have unsupervised : ∀ p, outside p → (s.received .uplink).placeSupervised p = false := by
    rintro (⟨l, i⟩ | h) out
    · exact State.placeSupervised_slot (s := s.received .uplink) out
    · exact State.placeSupervised_hoist (s := s.received .uplink) out
  have left : (s.received .uplink).massSupervised m = false :=
    State.massSupervised_eq_false (s := s.received .uplink) fun p e => unsupervised p (formerly p e)
  have change : ∀ t, s.Rerecords t → (∀ h, t.hoist h = { s.hoist h with carried := (t.hoist h).carried }) →
      (∀ x, x ≠ m → t.mass x = s.mass x) → changed t := by
    intro t rerecords hoists masses
    refine ⟨rerecords.landing, rerecords.undefined, fun l rec record => ?_, hoists, masses, rerecords.only⟩
    obtain ⟨slots, length, record'⟩ := rerecords.slots l rec record
    exact ⟨_, record', rfl, length⟩
  refine ⟨fun absent => ?_, fun present => ⟨s.removed m, ?_, ?_, ?_, fun l i => ?_, fun h => ?_⟩, ?_⟩
  · exact order_answered takes (State.removeMass_absent number left absent)
  · refine order_answered takes ((State.removeMass_present number left present).trans ?_)
    unfold State.removed
    rw [State.vacatePlace_received]
    rfl
  · refine change _ (.removed s m) (fun h => ?_) fun x other => ?_
    · change (s.vacatePlace m).hoist h = { s.hoist h with carried := ((s.vacatePlace m).hoist h).carried }
      rw [State.hoist_vacatePlace]
    · rw [State.mass_removed, if_neg other]
  · rw [State.mass_removed, if_pos rfl]
    rfl
  · exact State.slotAt_vacatePlace s m l i
  · exact congrArg Hoist.carried (State.hoist_vacatePlace s m h)
  intro n kind place slot p low high out given
  have accepted : ∀ {kind place slot},
      (s.received .uplink).declaredPlace kind place slot = .place p →
      (s.received .uplink).beyondSlots p = false → (s.received .uplink).placeFree m p = true →
      exec (.declareMass o b n kind place slot) s =
        .next (State.answered (s.declare m n.toNat p) o 0x40 .accepted 0 []) := by
    intro kind place slot given within free
    refine order_answered takes
      ((State.declareMass_accepted number left given low high within (unsupervised p out) free).trans ?_)
    rw [State.declare_received]
    rfl
  have taken : exec (.declareMass o b n kind place slot) s =
        .next (State.answered (s.declare m n.toNat p) o 0x40 .accepted 0 []) ∧
      ∀ l i, p = .slot l i → s.HasSlot l i := by
    cases p with
    | slot l i =>
      obtain ⟨rfl, at_, rfl, ⟨rec, record, within⟩, free⟩ := given
      have has : s.HasSlot l slot.toNat := ⟨rec, record, within⟩
      refine ⟨accepted (State.declaredPlace_slot (s := s.received .uplink) at_ record)
        (State.beyondSlots_slot (s := s.received .uplink) has) (State.placeFree_slot free), ?_⟩
      rintro _ _ ⟨⟩
      exact has
    | hoist h =>
      obtain ⟨rfl, at_, ⟨k, config⟩, free⟩ := given
      exact ⟨accepted (State.declaredPlace_hoist (s := s.received .uplink) at_ config) rfl (State.placeFree_hoist free),
        fun _ _ => nofun⟩
  refine ⟨s.declare m n.toNat p, taken.1, ?_, ?_, fun l i => ?_, fun h => ?_⟩
  · refine change _ (.declare s m _ p) (fun h => ?_) fun x other => ?_
    · rw [State.hoist_declare]
    · rw [State.mass_declare, if_neg other]
  · rw [State.mass_declare, if_pos rfl]
  · exact State.slotAt_declare s m _ taken.2 l i
  · exact congrArg Hoist.carried (State.hoist_declare s m _ p h)

end Sys2Proof.Machine
end

section
/-! ## O53: the survey codes settle the slots -/

namespace Sys2Proof.Machine

/-! ### What a code names (R154) -/

theorem State.massInHandover_iff {s : State} {m : MassId} : s.massInHandover m = true ↔ s.InHandover none m := by
  unfold State.massInHandover State.InHandover
  rw [List.any_eq_true]
  constructor
  · rintro ⟨v, inside, mass⟩
    obtain ⟨y, queued⟩ := State.mem_handovers.1 inside
    exact ⟨y, v, queued, nofun, beq_iff_eq.1 mass⟩
  · rintro ⟨y, v, queued, -, mass⟩
    exact ⟨v, State.mem_handovers.2 ⟨y, queued⟩, beq_iff_eq.2 mass⟩

/-- A mass that counts as declared for a survey (R154). -/
def State.Declared (s : State) (x : MassId) : Prop := (s.mass x).status ≠ .absent ∧ ¬s.InHandover none x

/-- The mass a survey code names, where that mass counts as declared. -/
def State.codeNames (s : State) (code : Byte) : Option MassId := s.declaredTag s.massInHandover code

theorem State.codeNames_iff {s : State} {code : Byte} {x : MassId} :
    s.codeNames code = some x ↔ code.toNat = x.val + 1 ∧ s.Declared x := by
  unfold State.codeNames State.declaredTag State.Declared
  rw [← massOf_iff, ← MassStatus.present_iff, ← State.massInHandover_iff, Bool.not_eq_true]
  cases massOf code with
  | none => exact ⟨nofun, fun e => nomatch e.1⟩
  | some t =>
    dsimp only
    split
    · rename_i counts
      refine ⟨?_, And.left⟩
      rintro ⟨⟩
      exact ⟨rfl, counts⟩
    · rename_i not_
      refine ⟨nofun, ?_⟩
      rintro ⟨⟨⟩, counts⟩
      exact absurd counts not_

/-- A code other than 0 and 255 that names no declared mass. -/
structure State.Unknown (s : State) (code : Byte) : Prop where
  zero : code ≠ 0
  full : code ≠ 255
  unnamed : s.codeNames code = none

theorem State.Unknown.of_high {s : State} {code : Byte} (high : 96 < code.toNat) (full : code ≠ 255) : s.Unknown code := by
  refine ⟨by rintro rfl; exact absurd high (by decide), full, Option.eq_none_iff_forall_ne_some.2 fun x e => ?_⟩
  have number := (State.codeNames_iff.1 e).1
  have := x.isLt
  omega

/-- The number of a mass is neither 0 nor 255. -/
theorem code_of_mass {code : Byte} {x : MassId} (number : code.toNat = x.val + 1) : code ≠ 0 ∧ code ≠ 255 := by
  have := x.isLt
  constructor <;> bv_omega

theorem State.Unknown.of_undeclared {s : State} {code : Byte} {x : MassId} (number : code.toNat = x.val + 1)
    (not_ : ¬s.Declared x) : s.Unknown code := by
  refine ⟨(code_of_mass number).1, (code_of_mass number).2, Option.eq_none_iff_forall_ne_some.2 fun y e => ?_⟩
  obtain ⟨number', declared⟩ := State.codeNames_iff.1 e
  have same : x = y := Fin.ext (by omega)
  exact not_ (same ▸ declared)

/-! ### What a code makes of a slot (R154) -/

section

variable {s : State} {l : LandingId} {i : Nat} {e : Option MassId} {code : Byte}

theorem State.applyCode_zero : s.applyCode l i e 0 = s.setSlot l i .empty := by
  unfold State.applyCode
  exact if_pos rfl

theorem State.applyCode_full :
    s.applyCode l i e 255 =
      e.elim (s.setSlot l i (.blocked e)) fun m =>
        (s.setSlot l i (.blocked e)).setStatus m (.uncertain (some (.slot l i))) := by
  unfold State.applyCode
  dsimp only
  rw [if_neg (by decide), if_pos rfl]
  cases e <;> rfl

theorem State.applyCode_unknown (unknown : s.Unknown code) : s.applyCode l i e code = s.setSlot l i (.blocked none) := by
  have unnamed : s.declaredTag s.massInHandover code = none := unknown.unnamed
  unfold State.applyCode
  dsimp only
  rw [if_neg unknown.zero, if_neg unknown.full, unnamed]

/-- The mass is PLACED elsewhere than in the slot. -/
def State.Astray (s : State) (x : MassId) (here : Place) : Prop := ∃ p, (s.mass x).status = .placed p ∧ p ≠ here

/-- The code of a declared mass: its former place is doubted, and the slot takes it. -/
theorem State.applyCode_declared {x : MassId} (named : s.codeNames code = some x) :
    ∃ st status, s.applyCode l i e code = ((s.doubtPlace x).setSlot l i st).setStatus x status ∧ st.names = some x ∧
      (st = .occupied x ∨ s.Astray x (.slot l i)) ∧ (st = .blocked (some x) ∨ ¬s.Astray x (.slot l i)) ∧
      (status = .placed (.slot l i) ∨ s.Astray x (.slot l i)) ∧
      (status = .uncertain (some (.slot l i)) ∨ ¬s.Astray x (.slot l i)) := by
  obtain ⟨zero, full⟩ := code_of_mass (State.codeNames_iff.1 named).1
  have tag : s.declaredTag s.massInHandover code = some x := named
  unfold State.applyCode
  dsimp only
  rw [if_neg zero, if_neg full, tag]
  dsimp only
  by_cases astray : s.Astray x (.slot l i)
  · refine ⟨.blocked (some x), .uncertain (some (.slot l i)), ?_, rfl, .inr astray, .inl rfl, .inr astray, .inl rfl⟩
    obtain ⟨p, placed, ne⟩ := astray
    rw [placed]
    exact if_neg ne
  · refine ⟨.occupied x, .placed (.slot l i), ?_, rfl, .inl rfl, .inr astray, .inl rfl, .inr astray⟩
    split
    · rename_i p placed
      exact if_pos (not_not.1 fun ne => astray ⟨p, placed, ne⟩)
    · rfl

/-! ### The mass a slot names no longer (R154) -/

theorem State.Rerecords.loseMass (s : State) (here : Place) (e kept : Option MassId) :
    s.Rerecords (s.loseMass here e kept) := by
  unfold State.loseMass
  split
  · split
    · exact .setStatus s _ _
    · exact .same s
  · exact .same s

theorem State.slotAt_loseMass (s : State) (here : Place) (e kept : Option MassId) (y : LandingId) (j : Nat) :
    (s.loseMass here e kept).slotAt y j = s.slotAt y j := by
  unfold State.loseMass
  split
  · split <;> rfl
  · rfl

theorem State.hoist_loseMass (s : State) (here : Place) (e kept : Option MassId) (y : HoistId) :
    (s.loseMass here e kept).hoist y = s.hoist y := by
  unfold State.loseMass
  split
  · split <;> rfl
  · rfl

theorem State.mass_loseMass (s : State) (here : Place) (e kept : Option MassId) (y : MassId) :
    (s.loseMass here e kept).mass y =
      if e = some y ∧ kept ≠ some y ∧ (s.mass y).status.place = some here then
        { s.mass y with status := .uncertain none }
      else s.mass y := by
  unfold State.loseMass
  cases e with
  | none => rw [if_neg fun both => nomatch both.1]
  | some m =>
    dsimp only
    by_cases same : y = m
    · subst same
      by_cases lost : kept ≠ some y ∧ (s.mass y).status.place = some here
      · rw [if_pos lost, if_pos ⟨rfl, lost⟩]
        exact State.modMass_mass_self ..
      · rw [if_neg lost, if_neg fun both => lost both.2]
    · have other : ¬(some m = some y ∧ kept ≠ some y ∧ (s.mass y).status.place = some here) :=
        fun both => same (Option.some.inj both.1).symm
      rw [if_neg other]
      split
      · exact State.modMass_mass_ne _ same _
      · rfl

/-! ### One slot (R154) -/

/-- One slot settled by its code, with nothing latched yet. -/
def State.settleSlot (s : State) (l : LandingId) (i : Nat) (code : Byte) : State :=
  let e := (s.slotAt l i).names
  let u := s.applyCode l i e code
  u.loseMass (.slot l i) e (u.slotAt l i).names

theorem State.settleSlot_eq {u : State} (named : (s.slotAt l i).names = e) (coded : s.applyCode l i e code = u) :
    s.settleSlot l i code = u.loseMass (.slot l i) e (u.slotAt l i).names := by
  subst named coded
  rfl

theorem State.reconcileSlot_blocked {x : Option MassId} (blocked : s.slotAt l i = .blocked x) :
    s.reconcileSlot l i code = s := by
  unfold State.reconcileSlot
  rw [blocked]

theorem State.reconcileSlot_eq (open_ : ∀ x, s.slotAt l i ≠ .blocked x) :
    s.reconcileSlot l i code =
      if massCode (s.slotAt l i).names = code.toNat then s.settleSlot l i code
      else (s.settleSlot l i code).latchedBit 16 := by
  unfold State.reconcileSlot
  split
  · exact absurd ‹_› (open_ _)
  · rfl

theorem State.reconcileSlot_agrees (open_ : ∀ x, s.slotAt l i ≠ .blocked x)
    (agrees : massCode (s.slotAt l i).names = code.toNat) : s.reconcileSlot l i code = s.settleSlot l i code := by
  rw [State.reconcileSlot_eq open_, if_pos agrees]

theorem State.reconcileSlot_differs (open_ : ∀ x, s.slotAt l i ≠ .blocked x)
    (differs : massCode (s.slotAt l i).names ≠ code.toNat) :
    s.reconcileSlot l i code = (s.settleSlot l i code).latchedBit 16 := by
  rw [State.reconcileSlot_eq open_, if_neg differs]

/-- The code of a mass agrees with a slot that names it. -/
theorem massCode_eq_iff {e : Option MassId} {x : MassId} : massCode e = x.val + 1 ↔ e = some x := by
  cases e with
  | none => exact ⟨nofun, nofun⟩
  | some m =>
    rw [Option.some.injEq]
    exact ⟨fun same => Fin.ext (Nat.succ.inj same), fun same => same ▸ rfl⟩

/-- A code that only writes the slot, to name nothing: a slot that named nothing before. -/
theorem State.settleSlot_unnamed {x : SlotState} (unnamed : (s.slotAt l i).names = none)
    (coded : s.applyCode l i none code = s.setSlot l i x) : s.settleSlot l i code = s.setSlot l i x := by
  rw [State.settleSlot_eq unnamed coded]
  rfl

/-- A slot that names nothing, and a code that is not 0 and only writes it. -/
theorem State.reconcileSlot_vacant {x : SlotState} (open_ : ∀ x, s.slotAt l i ≠ .blocked x)
    (unnamed : (s.slotAt l i).names = none) (set : code ≠ 0) (coded : s.applyCode l i none code = s.setSlot l i x) :
    s.reconcileSlot l i code = (s.setSlot l i x).latchedBit 16 := by
  rw [← State.settleSlot_unnamed unnamed coded]
  refine State.reconcileSlot_differs open_ ?_
  rw [unnamed]
  exact fun zero => set (BitVec.eq_of_toNat_eq zero.symm)

/-- A slot that names a mass, and another code than its own. -/
theorem State.reconcileSlot_other {m : MassId} (open_ : ∀ x, s.slotAt l i ≠ .blocked x)
    (named : (s.slotAt l i).names = some m) (other : code.toNat ≠ m.val + 1) :
    s.reconcileSlot l i code = (s.settleSlot l i code).latchedBit 16 := by
  refine State.reconcileSlot_differs open_ ?_
  rw [named]
  exact other.symm

/-- The code of a mass changes the records, and latches VERIFY unless the slot named that mass. -/
theorem State.reconcileSlot_mass {x : MassId} (open_ : ∀ x, s.slotAt l i ≠ .blocked x) (number : code.toNat = x.val + 1)
    (rerecords : s.Rerecords (s.settleSlot l i code)) :
    s.reconcileSlot l i code =
      { (if (s.slotAt l i).names = some x then s else s.latchedBit 16) with
        landings := (s.settleSlot l i code).landings
        hoists := (s.settleSlot l i code).hoists
        masses := (s.settleSlot l i code).masses } := by
  have only := rerecords.only
  by_cases own : (s.slotAt l i).names = some x
  · rw [if_pos own, ← only]
    exact State.reconcileSlot_agrees open_ (number ▸ massCode_eq_iff.2 own)
  · rw [if_neg own, State.reconcileSlot_differs open_ (number ▸ mt massCode_eq_iff.1 own)]
    exact congrArg (State.latchedBit · 16) only

variable (has : s.HasSlot l i)

include has

/-- A code that only writes the slot, to name nothing: a slot that named a mass whose place it was, which is lost. -/
theorem State.settleSlot_lost {x : SlotState} {m : MassId} (named : (s.slotAt l i).names = some m)
    (coded : s.applyCode l i (some m) code = s.setSlot l i x) (empty : x.names = none)
    (place : (s.mass m).status.place = some (.slot l i)) :
    s.settleSlot l i code = (s.setSlot l i x).setStatus m (.uncertain none) := by
  rw [State.settleSlot_eq named coded, State.slotAt_setSlot_self has, empty]
  exact if_pos ⟨nofun, place⟩

/-- The code 255 of a slot that names a mass: it goes on naming it. -/
theorem State.settleSlot_full {m : MassId} (named : (s.slotAt l i).names = some m) :
    s.settleSlot l i 255 =
      (s.setSlot l i (.blocked (some m))).setStatus m (.uncertain (some (.slot l i))) := by
  have still : (((s.setSlot l i (.blocked (some m))).setStatus m (.uncertain (some (.slot l i)))).slotAt l i).names =
      some m := congrArg SlotState.names (State.slotAt_setSlot_self has _)
  rw [State.settleSlot_eq named State.applyCode_full, Option.elim_some, still]
  exact if_neg fun lost => lost.1 rfl

end

/-! ### The code of a declared mass (R154) -/

section

variable (s : State) (l : LandingId) (i : Nat) (x : MassId) (st : SlotState) (status : MassStatus)

/-- A declared mass is found in a slot, which is left in the state given, and the mass with the status given. -/
def State.foundIn : State :=
  (((s.doubtPlace x).setSlot l i st).setStatus x status).loseMass (.slot l i) (s.slotAt l i).names (some x)

theorem State.Rerecords.foundIn : s.Rerecords (s.foundIn l i x st status) :=
  (((State.Rerecords.doubtPlace s x).andThen (.setSlot _ l i st)).andThen (.setStatus _ x status)).andThen
    (.loseMass _ _ _ _)

theorem State.slotAt_written {s : State} {l : LandingId} {i : Nat} (has : s.HasSlot l i) :
    (((s.doubtPlace x).setSlot l i st).setStatus x status).slotAt l i = st :=
  State.slotAt_setSlot_self (has.rerecorded (.doubtPlace s x)) st

theorem State.slotAt_foundIn_self {s : State} {l : LandingId} {i : Nat} (has : s.HasSlot l i) :
    (s.foundIn l i x st status).slotAt l i = st :=
  (State.slotAt_loseMass ..).trans (State.slotAt_written x st status has)

theorem State.slotAt_foundIn_other {y : LandingId} {j : Nat} (other : ¬(y = l ∧ j = i)) :
    (s.foundIn l i x st status).slotAt y j =
      if (s.mass x).status.place = some (.slot y j) then (s.slotAt y j).doubted x else s.slotAt y j :=
  (State.slotAt_loseMass ..).trans
    ((State.slotAt_setSlot_other _ other st).trans (State.slotAt_doubtPlace s x y j))

theorem State.hoist_foundIn (y : HoistId) :
    (s.foundIn l i x st status).hoist y =
      if (s.mass x).status.place = some (.hoist y) ∧ (s.hoist y).carried = .mass x then
        { s.hoist y with carried := .unknownLoad }
      else s.hoist y :=
  (State.hoist_loseMass ..).trans (State.hoist_doubtPlace s x y)

theorem State.mass_foundIn (y : MassId) :
    (s.foundIn l i x st status).mass y =
      if y = x then { s.mass y with status := status }
      else if (s.slotAt l i).names = some y ∧ (s.mass y).status.place = some (.slot l i) then
        { s.mass y with status := .uncertain none }
      else s.mass y := by
  have written : (((s.doubtPlace x).setSlot l i st).setStatus x status).mass y =
      if y = x then { s.mass y with status := status } else s.mass y := by
    refine (State.mass_setMass ..).trans ?_
    split
    · rename_i same
      rw [same]
      exact congrArg (fun r : Mass => { r with status := status }) (State.mass_doubtPlace s x x)
    · exact State.mass_doubtPlace s x y
  unfold State.foundIn
  rw [State.mass_loseMass, written]
  by_cases same : y = x
  · rw [if_neg fun lost => lost.2.1 (congrArg some same.symm), if_pos same, if_pos same]
  · have ne : some x ≠ some y := fun e => same (Option.some.inj e).symm
    rw [if_neg same, if_neg same]
    exact if_congr (by rw [and_iff_right ne]) rfl rfl

/-- A slot of a landing settled by the code of a declared mass: OCCUPIED, unless the mass is PLACED elsewhere. -/
theorem State.settleSlot_declared {s : State} {l : LandingId} {i : Nat} {code : Byte} {x : MassId} (has : s.HasSlot l i)
    (named : s.codeNames code = some x) :
    ∃ st status, s.settleSlot l i code = s.foundIn l i x st status ∧
      (st = .occupied x ∨ s.Astray x (.slot l i)) ∧ (st = .blocked (some x) ∨ ¬s.Astray x (.slot l i)) ∧
      (status = .placed (.slot l i) ∨ s.Astray x (.slot l i)) ∧
      (status = .uncertain (some (.slot l i)) ∨ ¬s.Astray x (.slot l i)) := by
  obtain ⟨st, status, coded, names, found⟩ :=
    State.applyCode_declared (l := l) (i := i) (e := (s.slotAt l i).names) named
  refine ⟨st, status, ?_, found⟩
  rw [State.settleSlot_eq rfl coded, State.slotAt_written x st status has, names]
  rfl

end

/-! ### Every slot (R153, R154) -/

section

variable (s : State) (l : LandingId)

theorem State.doubtPlace_received (t : MassId) : (s.received .field).doubtPlace t = (s.doubtPlace t).received .field := by
  unfold State.doubtPlace
  rw [State.mass_received]
  cases (s.mass t).status.place with
  | none => rfl
  | some x =>
    cases x with
    | slot l i => rfl
    | hoist h =>
      dsimp only
      rw [State.hoist_received]
      split <;> rfl

theorem State.loseMass_received (here : Place) (e kept : Option MassId) :
    (s.received .field).loseMass here e kept = (s.loseMass here e kept).received .field := by
  unfold State.loseMass
  cases e with
  | none => rfl
  | some m =>
    dsimp only
    rw [State.mass_received]
    split <;> rfl

theorem State.applyCode_received (i : Nat) (e : Option MassId) (code : Byte) :
    (s.received .field).applyCode l i e code = (s.applyCode l i e code).received .field := by
  have tag : (s.received .field).declaredTag (s.received .field).massInHandover code =
      s.declaredTag s.massInHandover code := rfl
  have found : ∀ t st status, (((s.received .field).doubtPlace t).setSlot l i st).setStatus t status =
      (((s.doubtPlace t).setSlot l i st).setStatus t status).received .field := by
    intro t st status
    rw [State.doubtPlace_received]
    rfl
  unfold State.applyCode
  dsimp only
  rw [tag]
  split
  · rfl
  · split
    · cases e <;> rfl
    · split
      · rw [State.mass_received]
        split
        · split <;> exact found ..
        · exact found ..
      · rfl

theorem State.reconcileSlot_received (i : Nat) (code : Byte) :
    (s.received .field).reconcileSlot l i code = (s.reconcileSlot l i code).received .field := by
  by_cases blocked : ∃ x, s.slotAt l i = .blocked x
  · obtain ⟨x, blocked⟩ := blocked
    rw [State.reconcileSlot_blocked blocked, State.reconcileSlot_blocked (s := s.received .field) blocked]
  · have open_ := not_exists.1 blocked
    have settled : (s.received .field).settleSlot l i code = (s.settleSlot l i code).received .field := by
      rw [State.settleSlot_eq (s := s.received .field) rfl (State.applyCode_received ..), State.loseMass_received]
      rfl
    by_cases agrees : massCode (s.slotAt l i).names = code.toNat
    · rw [State.reconcileSlot_agrees open_ agrees, State.reconcileSlot_agrees (s := s.received .field) open_ agrees,
        settled]
    · rw [State.reconcileSlot_differs open_ agrees, State.reconcileSlot_differs (s := s.received .field) open_ agrees,
        settled]
      rfl

theorem State.Rerecords.applyCode (i : Nat) (e : Option MassId) (code : Byte) :
    s.Rerecords (s.applyCode l i e code) := by
  have placed : ∀ t st status, s.Rerecords (((s.doubtPlace t).setSlot l i st).setStatus t status) := fun t st status =>
    ((doubtPlace s t).andThen (.setSlot _ l i st)).andThen (.setStatus _ t status)
  unfold State.applyCode
  dsimp only
  split
  · exact .setSlot s l i _
  · split
    · cases e with
      | none => exact .setSlot s l i _
      | some m => exact (State.Rerecords.setSlot s l i _).andThen (.setStatus _ m _)
    · split
      · split
        · split <;> exact placed ..
        · exact placed ..
      · exact .setSlot s l i _

theorem State.Rerecords.settleSlot (i : Nat) (code : Byte) : s.Rerecords (s.settleSlot l i code) :=
  (applyCode s l i _ code).andThen (.loseMass _ _ _ _)

/-- A survey code gives no frame and touches no handover. -/
theorem State.reconcileSlot_leaves (i : Nat) (code : Byte) :
    (s.reconcileSlot l i code).outbox = s.outbox ∧
      ∀ y, ((s.reconcileSlot l i code).landing y).queue = (s.landing y).queue := by
  by_cases blocked : ∃ x, s.slotAt l i = .blocked x
  · obtain ⟨x, blocked⟩ := blocked
    rw [State.reconcileSlot_blocked blocked]
    exact ⟨rfl, fun _ => rfl⟩
  · have settled := State.Rerecords.settleSlot s l i code
    have leaves : (s.settleSlot l i code).outbox = s.outbox ∧
        ∀ y, ((s.settleSlot l i code).landing y).queue = (s.landing y).queue :=
      ⟨by rw [settled.only], fun y => by rw [settled.landing y]⟩
    rw [State.reconcileSlot_eq (not_exists.1 blocked)]
    split <;> exact leaves

/-- Nor do the codes of several slots. -/
theorem State.reconcileSlots_leave (code : Nat → Byte) (slots : List Nat) :
    (slots.foldl (fun s i => s.reconcileSlot l i (code i)) s).outbox = s.outbox ∧
      ∀ y, ((slots.foldl (fun s i => s.reconcileSlot l i (code i)) s).landing y).queue = (s.landing y).queue := by
  induction slots generalizing s with
  | nil => exact ⟨rfl, fun _ => rfl⟩
  | cons i slots ih =>
    obtain ⟨outbox, queue⟩ := s.reconcileSlot_leaves l i (code i)
    obtain ⟨outbox', queue'⟩ := ih (s.reconcileSlot l i (code i))
    exact ⟨outbox'.trans outbox, fun y => (queue' y).trans (queue y)⟩

theorem State.reconcileSlots_received (code : Nat → Byte) (slots : List Nat) :
    slots.foldl (fun s i => s.reconcileSlot l i (code i)) (s.received .field) =
      (slots.foldl (fun s i => s.reconcileSlot l i (code i)) s).received .field :=
  List.foldl_hom (State.received · .field) fun s i => State.reconcileSlot_received s l i (code i)

/-- The slots in index order, each with its code. -/
theorem State.reconcile_eq {codes : List Byte} {n : Nat} (enough : n ≤ codes.length) :
    s.reconcile l (codes.take n) =
      (List.range n).foldl (fun s i => s.reconcileSlot l i (codes.getD i 0)) s := by
  have paired : (codes.take n).zipIdx = (List.range n).map fun i => (codes.getD i 0, i) := by
    refine List.ext_getElem ?_ fun i _ _ => ?_
    · simp [enough]
    · rename_i inside _
      have within : i < codes.length := by simp at inside; omega
      simp [within]
  unfold State.reconcile
  rw [paired, List.foldl_map]

end

/-- Settles O53: the slots one after another, and each by what its code names. -/
theorem surveySettlesASlot : Obligations.SurveySettlesASlot := by
  refine ⟨fun a w s l rec running station few at_ record holder queue state enough => ?_,
    fun s l rec i code record within => ?_⟩
  · intro heard t
    have next := shuttleReport_next running station few at_
    have record' : ((s.reportedBy l .done).landing l).record = some rec := (State.record_reportedBy ..).trans record
    have settled : (s.reportedBy l .done).reconcile l (w.survey.take rec.slots.length) = t.received .field :=
      (State.reconcile_eq _ l enough).trans (State.reconcileSlots_received heard l _ _)
    obtain ⟨outbox, queues⟩ := State.reconcileSlots_leave heard l (w.survey.getD · 0) (List.range rec.slots.length)
    have nobody : ∀ v ∈ ((t.received .field).landing l).queue, v.phase ≠ .waiting := by
      have empty : (t.landing l).queue = [] := by
        refine (queues l).trans ?_
        rw [show heard.landing l = { s.landing l with shuttle := .done } from State.setLanding_landing_self ..]
        exact queue
      rw [show ((t.received .field).landing l).queue = [] from empty]
      exact fun _ => nofun
    rw [next, State.takeShuttleReport_survey holder, shuttleStateOf_done state,
      State.reportToSurvey_done record' enough, settled, State.endSurvey_eq nobody, ← show t.outbox = s.outbox from outbox]
    rfl
  intro st here t put declared
  have has : s.HasSlot l i := ⟨rec, record, within⟩
  have written : ∀ x, s.setSlot l i x = put x := State.setSlot_eq record i
  refine ⟨fun x blocked => State.reconcileSlot_blocked blocked, fun vacant => ?_, fun e names place => ?_,
    fun x number counts open_ => ?_⟩
  · have open_ : ∀ x, st ≠ .blocked x := by rcases vacant with e | e <;> rw [e] <;> exact fun _ => nofun
    have unnamed : st.names = none := by rcases vacant with e | e <;> rw [e] <;> rfl
    have latches : code ≠ 0 → ∀ x, s.applyCode l i none code = s.setSlot l i x → t = (put x).latchedBit 16 :=
      fun set x coded => (State.reconcileSlot_vacant open_ unnamed set coded).trans (by rw [written])
    have unknown : s.Unknown code → t = (put (.blocked none)).latchedBit 16 := fun unknown =>
      latches unknown.zero _ (State.applyCode_unknown unknown)
    refine ⟨?_, ?_, fun high full => unknown (.of_high high full), fun x number not_ => unknown (.of_undeclared number not_)⟩
    · rintro rfl
      rw [← written, ← State.settleSlot_unnamed unnamed State.applyCode_zero]
      exact State.reconcileSlot_agrees open_ (by rw [unnamed]; rfl)
    · rintro rfl
      exact latches (by decide) _ State.applyCode_full
  · have open_ : ∀ x, st ≠ .blocked x := by rcases names with e | e <;> rw [e] <;> exact fun _ => nofun
    have named : st.names = some e := by rcases names with e | e <;> rw [e] <;> rfl
    intro marked
    have lost : ∀ x, s.applyCode l i (some e) code = s.setSlot l i x → x.names = none →
        s.settleSlot l i code = marked x (.uncertain none) := by
      intro x coded empty
      rw [State.settleSlot_lost has named coded empty place, written]
      rfl
    have latches : code.toNat ≠ e.val + 1 → t = (s.settleSlot l i code).latchedBit 16 :=
      State.reconcileSlot_other open_ named
    have unknown : s.Unknown code → s.settleSlot l i code = marked (.blocked none) (.uncertain none) := fun unknown =>
      lost _ (State.applyCode_unknown unknown) rfl
    have below := e.isLt
    refine ⟨?_, ?_, fun high full => ?_, fun x ne number not_ => ?_, fun number not_ => ?_⟩
    · rintro rfl
      rw [latches (by simp), lost _ State.applyCode_zero rfl]
    · rintro rfl
      rw [latches (by simp; omega), State.settleSlot_full has named, written]
      rfl
    · rw [latches (by omega), unknown (.of_high high full)]
    · have other : code.toNat ≠ e.val + 1 := fun same => ne (Fin.ext (by omega))
      rw [latches other, unknown (.of_undeclared number not_)]
    · have agrees : massCode st.names = code.toNat := by rw [named, number]; rfl
      rw [← unknown (.of_undeclared number not_)]
      exact State.reconcileSlot_agrees open_ agrees
  · intro former astray
    obtain ⟨y, status, settled, occupied, blocked, placed, uncertain⟩ :=
      State.settleSlot_declared has (State.codeNames_iff.2 ⟨number, counts⟩)
    have found : t = _ := State.reconcileSlot_mass open_ number (.settleSlot s l i code)
    rw [settled] at found
    have landing := (State.Rerecords.foundIn s l i x y status).landing
    have slot := State.slotAt_foundIn_self x y status has
    have slots := @State.slotAt_foundIn_other s l i x y status
    have hoists := State.hoist_foundIn s l i x y status
    have masses := State.mass_foundIn s l i x y status
    generalize s.foundIn l i x y status = w at *
    have mass : (w.mass x).status = status := by rw [masses, if_pos rfl]
    rw [← slot] at occupied blocked
    rw [← mass] at placed uncertain masses
    clear_value t
    subst found
    refine ⟨occupied, blocked, placed, uncertain, fun z j other => ?_, hoists, fun z => ?_, landing, rfl⟩
    · exact slots fun same => other.elim (· same.1) (· same.2)
    · refine (masses z).trans ?_
      by_cases same : z = x
      · subst same
        rw [if_pos rfl, if_pos rfl]
        rfl
      · rw [if_neg same, if_neg same]

end Sys2Proof.Machine
end

section
/-! ## O2: a millisecond with no command waiting -/

namespace Sys2Proof.Machine

theorem State.tick_held {s : State} (held : s.resetInput = true) : s.tick = s := if_pos held

theorem State.tick_free {s : State} (free : s.resetInput = false) : s.tick =
    { s with
      now := s.now + 1
      outbox := sendOldest .field (sendOldest .uplink s.outbox)
      pending := State.dueEvents { s with now := s.now + 1 } } :=
  if_neg (by rw [free]; decide)

theorem step_idle {s : State} (idle : s.pending = []) : step s = .next s.tick := by
  unfold step
  rw [idle]

/-- Settles O2: with no command waiting a step is a tick, which reset holds back. -/
theorem idleStepIsOneMillisecond : Obligations.IdleStepIsOneMillisecond := by
  intro s idle
  rw [step_idle idle]
  exact ⟨fun held => congrArg Host.Outcome.next (State.tick_held held),
    fun free => congrArg Host.Outcome.next (State.tick_free free)⟩

end Sys2Proof.Machine
end

section
/-! ## A proof status evaluated, and what follows from a change -/

namespace Sys2Proof.Machine

/-! ### The status (R159) -/

/-- The latest REPORT of a hoist shows the environment warning. -/
def Hoist.warned (r : Hoist) : Prop := ∃ l, r.latest = some l ∧ l.envWarning = true

theorem Hoist.effectiveInterval_warned {r : Hoist} (warned : r.warned) (n : Nat) : r.effectiveInterval n = n / 2 := by
  obtain ⟨l, latest, warning⟩ := warned
  unfold Hoist.effectiveInterval
  rw [latest]
  exact if_pos warning

theorem Hoist.effectiveInterval_unwarned {r : Hoist} (calm : ¬r.warned) (n : Nat) : r.effectiveInterval n = n := by
  unfold Hoist.effectiveInterval
  cases latest : r.latest with
  | none => rfl
  | some l => exact if_neg fun warning => calm ⟨l, latest, warning⟩

theorem State.evaluatedStatus_none (s : State) {r : Hoist} (never : r.lastPass = none) :
    s.evaluatedStatus r = .lapsed := by
  unfold State.evaluatedStatus
  rw [never]

theorem State.evaluatedStatus_some (s : State) {r : Hoist} {p : Nat} (passed : r.lastPass = some p) :
    s.evaluatedStatus r = proofStatusOf (s.seconds - p) (r.effectiveInterval s.proofInterval) := by
  unfold State.evaluatedStatus
  rw [passed]

theorem proofStatusOf_current {elapsed i : Nat} (within : elapsed < i) : proofStatusOf elapsed i = .current :=
  if_pos within

theorem proofStatusOf_due {elapsed i : Nat} (past : i ≤ elapsed) (within : elapsed < 2 * i) :
    proofStatusOf elapsed i = .due := (if_neg (Nat.not_lt.2 past)).trans (if_pos within)

theorem proofStatusOf_lapsed {elapsed i : Nat} (past : i ≤ elapsed) (beyond : 2 * i ≤ elapsed) :
    proofStatusOf elapsed i = .lapsed := (if_neg (Nat.not_lt.2 past)).trans (if_neg (Nat.not_lt.2 beyond))

/-! ### A hoist with its status evaluated (R159, R160) -/

/-- A hoist whose proof status becomes another: an open move that finds it DUE or LAPSED is DEGRADED (R160). -/
def Hoist.withStatus (r : Hoist) (st : ProofStatus) : Hoist :=
  { r with
    proofStatus := st
    move := if st = .current then r.move else r.move.map fun m => { m with degraded := m.degraded || m.isOpen } }

/-- What an evaluation of its proof status makes of a hoist. -/
def State.evaluated (s : State) (r : Hoist) : Hoist :=
  if s.evaluatedStatus r = r.proofStatus then r else (r.withStatus (s.evaluatedStatus r)).enveloped s

/-- An evaluation finds an open move that its hoist's new status degrades (R160). -/
def State.degrades (s : State) (r : Hoist) : Bool :=
  decide (s.evaluatedStatus r ∉ [r.proofStatus, .current]) && r.moveOpen

theorem State.degrades_iff {s : State} {r : Hoist} :
    s.degrades r = true ↔ s.evaluatedStatus r ∉ [r.proofStatus, .current] ∧ r.moveOpen = true := by
  simp only [State.degrades, Bool.and_eq_true, decide_eq_true_eq]

theorem State.evaluated_proofStatus (s : State) (r : Hoist) : (s.evaluated r).proofStatus = s.evaluatedStatus r := by
  unfold State.evaluated
  split
  · exact Eq.symm ‹_›
  · rfl

/-- The envelope does not read the DEGRADED mark (R84 to R90). -/
theorem State.envelope_withStatus (s : State) (r : Hoist) (st : ProofStatus) (d : Direction) :
    s.envelope (r.withStatus st) d = s.envelope { r with proofStatus := st } d := by
  have target : appliedTarget (r.withStatus st) d = appliedTarget { r with proofStatus := st } d := by
    unfold Hoist.withStatus appliedTarget
    dsimp only
    by_cases current : st = .current
    · rw [if_pos current]
    · rw [if_neg current]
      cases r.state <;> cases r.move <;> rfl
  unfold State.envelope State.envelopeTerms approachTerms stopTerm stopDistance
  rw [target]
  rfl

theorem Hoist.enveloped_withStatus (r : Hoist) (s : State) (st : ProofStatus) :
    (r.withStatus st).enveloped s =
      { Hoist.enveloped { r with proofStatus := st } s with move := (r.withStatus st).move } := by
  unfold Hoist.enveloped
  rw [State.envelope_withStatus, State.envelope_withStatus]
  rfl

theorem Hoist.moveOpen_eq {r : Hoist} {m : Move} (held : r.move = some m) : r.moveOpen = m.isOpen := by
  unfold Hoist.moveOpen
  rw [held]

/-- Where no open move finds the status DUE or LAPSED, the mark stays as it was. -/
theorem Hoist.withStatus_move_unmarked {r : Hoist} {st : ProofStatus} (calm : ¬(st ≠ .current ∧ r.moveOpen = true)) :
    (r.withStatus st).move = r.move := by
  by_cases current : st = .current
  · exact if_pos current
  · refine (if_neg current).trans ?_
    cases held : r.move with
    | none => rfl
    | some m =>
      have closed : m.isOpen = false := Bool.eq_false_iff.2 fun running =>
        calm ⟨current, (Hoist.moveOpen_eq held).trans running⟩
      rw [Option.map_some, closed, Bool.or_false, ← closed]

theorem Hoist.withStatus_move_marked {r : Hoist} {st : ProofStatus} (ne : st ≠ .current) (running : r.moveOpen = true) :
    (r.withStatus st).move = r.move.map fun m => { m with degraded := true } := by
  refine (if_neg ne).trans (Option.map_congr fun m held => ?_)
  rw [← Hoist.moveOpen_eq held, running, Bool.or_true]

/-! ### One hoist evaluated -/

theorem State.setHoist_self (s : State) (h : HoistId) : s.setHoist h (s.hoist h) = s := by
  simp [State.setHoist, State.hoist]

theorem State.degrade_setHoist (s : State) (h : HoistId) (r : Hoist) : (s.setHoist h r).degrade h =
    (s.setHoist h { r with move := r.move.map fun m => { m with degraded := true } }).latch .proof := by
  unfold State.degrade State.modHoist
  rw [State.setHoist_hoist_self, State.setHoist_setHoist]
  exact congrArg (fun r => (s.setHoist h r).latch .proof) (Hoist.modMove_eq ..)

/-- A status that changed, as the model takes it: the envelope first, and then the mark. -/
theorem State.evaluateProof_changed {s : State} {h : HoistId}
    (ne : s.evaluatedStatus (s.hoist h) ≠ (s.hoist h).proofStatus) :
    let u := s.setHoist h (Hoist.enveloped { s.hoist h with proofStatus := s.evaluatedStatus (s.hoist h) } s)
    s.evaluateProof h =
      if s.evaluatedStatus (s.hoist h) ≠ .current ∧ (s.hoist h).moveOpen = true then u.degrade h else u := by
  intro u
  have written : (s.modHoist h fun r => { r with proofStatus := s.evaluatedStatus (s.hoist h) }).recompute h = u := by
    unfold State.recompute
    rw [State.modHoist_modHoist]
    rfl
  refine (if_neg ne).trans ?_
  rw [written, State.setHoist_hoist_self]
  rfl

/-- An evaluation in full: the hoist is written, and PROOF latched where its open move is degraded (R159, R160). -/
theorem State.evaluateProof_eq (s : State) (h : HoistId) : s.evaluateProof h =
    if s.degrades (s.hoist h) = true then (s.setHoist h (s.evaluated (s.hoist h))).latch .proof
    else s.setHoist h (s.evaluated (s.hoist h)) := by
  unfold State.evaluated
  by_cases same : s.evaluatedStatus (s.hoist h) = (s.hoist h).proofStatus
  · have calm : ¬s.degrades (s.hoist h) = true := fun degrades => (State.degrades_iff.1 degrades).1 (by simp [same])
    rw [if_neg calm, if_pos same, State.setHoist_self]
    exact if_pos same
  · have degrades : s.degrades (s.hoist h) = true ↔
        s.evaluatedStatus (s.hoist h) ≠ .current ∧ (s.hoist h).moveOpen = true := by simp [State.degrades_iff, same]
    rw [if_neg same, State.evaluateProof_changed same, Hoist.enveloped_withStatus]
    refine if_ctx_congr degrades.symm (fun marks => ?_) fun calm => ?_
    · obtain ⟨past, running⟩ := degrades.1 marks
      rw [State.degrade_setHoist, Hoist.withStatus_move_marked past running]
      rfl
    · rw [Hoist.withStatus_move_unmarked fun marks => calm (degrades.2 marks)]
      rfl

section

variable {s : State} {h y : HoistId}

theorem State.hoist_evaluateProof_self (s : State) (h : HoistId) :
    (s.evaluateProof h).hoist h = s.evaluated (s.hoist h) := by
  rw [State.evaluateProof_eq]
  split
  · exact State.setHoist_hoist_self ..
  · exact State.setHoist_hoist_self ..

theorem State.hoist_evaluateProof_other (ne : y ≠ h) : (s.evaluateProof h).hoist y = s.hoist y := by
  rw [State.evaluateProof_eq]
  split
  · exact State.setHoist_hoist_ne _ ne _
  · exact State.setHoist_hoist_ne _ ne _

theorem State.evaluateProof_latched (s : State) (h : HoistId) : (s.evaluateProof h).latched =
    if s.degrades (s.hoist h) = true then s.latched ||| 64 else s.latched := by
  rw [State.evaluateProof_eq]
  split <;> rfl

theorem State.evaluateProof_records (s : State) (h : HoistId) :
    (s.evaluateProof h).records = s.records ∧ (s.evaluateProof h).overflow = s.overflow := by
  rw [State.evaluateProof_eq]
  split <;> exact ⟨rfl, rfl⟩

end

/-! ### Every hoist evaluated (R158, R159) -/

section

variable {s t : State}

theorem State.OnlyHoists.envelope (a : s.OnlyHoists t) (r : Hoist) (d : Direction) :
    t.envelope r d = s.envelope r d := by
  unfold State.OnlyHoists at a
  rw [a]
  rfl

theorem State.OnlyHoists.evaluatedStatus (a : s.OnlyHoists t) (r : Hoist) :
    t.evaluatedStatus r = s.evaluatedStatus r := by
  unfold State.OnlyHoists at a
  rw [a]
  rfl

theorem State.OnlyHoists.evaluated (a : s.OnlyHoists t) (r : Hoist) : t.evaluated r = s.evaluated r := by
  unfold State.evaluated Hoist.enveloped
  simp only [a.evaluatedStatus, a.envelope]

theorem State.OnlyHoists.degrades (a : s.OnlyHoists t) (r : Hoist) : t.degrades r = s.degrades r := by
  unfold State.degrades
  rw [a.evaluatedStatus]

end

theorem State.OnlyHoists.refl (s : State) : s.OnlyHoists s := rfl

/-- One evaluation rests on nothing that another writes: each hoist is evaluated as the first state has it. -/
theorem State.hoist_evaluateAll (s : State) (h : HoistId) : s.evaluateAll.hoist h = s.evaluated (s.hoist h) := by
  refine ((State.hoist_foldl (inv := s.OnlyHoists) (R := fun r r' => r' = s.evaluated r)
    (fun u x ok => ok.trans (u.evaluateProof_acts x).only) (fun u x ok => ?_)
    (fun _ _ _ => State.hoist_evaluateProof_other) (hs := allHoists) (by decide) (State.OnlyHoists.refl s)).2 h).1
    (mem_allHoists h)
  rw [State.hoist_evaluateProof_self, ok.evaluated]

theorem State.evaluateAll_records (s : State) :
    s.evaluateAll.records = s.records ∧ s.evaluateAll.overflow = s.overflow := by
  refine (State.hoist_foldl (inv := fun u => u.records = s.records ∧ u.overflow = s.overflow) (R := fun _ _ => True)
    (fun u x ok => ?_) (fun _ _ _ => trivial) (fun _ _ _ => State.hoist_evaluateProof_other) (hs := allHoists)
    (by decide) ⟨rfl, rfl⟩).1
  obtain ⟨records, overflow⟩ := u.evaluateProof_records x
  exact ⟨records.trans ok.1, overflow.trans ok.2⟩

/-- PROOF is latched by the hoists evaluated in turn exactly where the first state has one that degrades (R160). -/
theorem State.foldl_evaluateProof_latched (s : State) {hs : List HoistId} (nodup : hs.Nodup) :
    (hs.foldl (fun s h => s.evaluateProof h) s).latched =
      if (hs.any fun h => s.degrades (s.hoist h)) = true then s.latched ||| 64 else s.latched := by
  induction hs generalizing s with
  | nil => rfl
  | cons x xs ih =>
    obtain ⟨fresh, nodup⟩ := List.nodup_cons.1 nodup
    have others : (xs.any fun h => (s.evaluateProof x).degrades ((s.evaluateProof x).hoist h)) =
        xs.any fun h => s.degrades (s.hoist h) := by
      rw [Bool.eq_iff_iff, List.any_eq_true, List.any_eq_true]
      refine exists_congr fun h => and_congr_right fun m => ?_
      have ne : h ≠ x := fun e => fresh (e ▸ m)
      rw [State.hoist_evaluateProof_other ne, (s.evaluateProof_acts x).only.degrades]
    rw [List.foldl_cons, ih _ nodup, others, State.evaluateProof_latched, List.any_cons]
    cases s.degrades (s.hoist x) <;> cases xs.any fun h => s.degrades (s.hoist h) <;>
      simp [BitVec.or_assoc]

theorem State.evaluateAll_latched (s : State) : s.evaluateAll.latched =
    if ∃ h, s.degrades (s.hoist h) = true then s.latched ||| 64 else s.latched := by
  have every : (allHoists.any fun h => s.degrades (s.hoist h)) = true ↔ ∃ h, s.degrades (s.hoist h) = true := by
    simp [mem_allHoists]
  exact (s.foldl_evaluateProof_latched (by decide)).trans (if_congr every rfl rfl)

/-- What evaluating every hoist leaves: each hoist as the first state has it evaluated, and PROOF latched for a move
degraded. -/
structure State.Evaluates (s t : State) : Prop where
  only : s.OnlyHoists t
  hoist : ∀ h, t.hoist h = s.evaluated (s.hoist h)
  latched : t.latched = if ∃ h, s.degrades (s.hoist h) = true then s.latched ||| 64 else s.latched
  records : t.records = s.records ∧ t.overflow = s.overflow

theorem State.evaluateAll_evaluates (s : State) : s.Evaluates s.evaluateAll :=
  ⟨s.evaluateAll_acts.only, s.hoist_evaluateAll, s.evaluateAll_latched, s.evaluateAll_records⟩

namespace State.Evaluates

variable {s t : State} (e : s.Evaluates t)

include e

theorem status (h : HoistId) : (t.hoist h).proofStatus = s.evaluatedStatus (s.hoist h) := by
  rw [e.hoist, State.evaluated_proofStatus]

theorem seconds : t.seconds = s.seconds := by rw [e.only]

/-- A hoist evaluated, in the words of the state that the evaluation leaves. -/
theorem hoist_eq (h : HoistId) : t.hoist h =
    if (t.hoist h).proofStatus = (s.hoist h).proofStatus then s.hoist h
    else
      { (s.hoist h).withStatus (t.hoist h).proofStatus with
        envDown := t.envelope (t.hoist h) .down
        envUp := t.envelope (t.hoist h) .up } := by
  have self := e.hoist h
  unfold State.evaluated at self
  rw [← e.status] at self
  rw [e.only.envelope, e.only.envelope]
  by_cases same : (t.hoist h).proofStatus = (s.hoist h).proofStatus
  · rwa [if_pos same] at self ⊢
  · rw [if_neg same] at self ⊢
    exact Hoist.enveloped_eq (.same s) self

end State.Evaluates

end Sys2Proof.Machine
end

section
/-! ## O32: a passing second -/

namespace Sys2Proof.Machine

/-- The part at the next second, before the evaluation (R157, logs 4, 8 and 9). -/
def State.nextTick (s : State) : State :=
  { s with
    seconds := nextSeconds s.seconds
    now := max s.now s.nextSecond
    nextSecond := s.nextSecond + 1000 }

theorem exec_secondTick {s : State} (free : s.resetInput = false) :
    exec .secondTick s = .next s.nextTick.evaluateAll := by
  show execSecondTick s = _
  unfold execSecondTick
  rw [event_free s _ free]
  rfl

theorem nextSeconds_below {n : Nat} (below : n + 1 < 2 ^ 32) : nextSeconds n = n + 1 := by
  unfold nextSeconds
  rw [if_pos (by norm_num [Config.secondsLimit] at below ⊢; exact below)]

/-- Settles O32: one second, and every hoist's status evaluated as that second has it (`State.hoist_evaluateAll`). -/
theorem secondTickEvaluatesEveryProof : Obligations.SecondTickEvaluatesEveryProof := by
  intro s free
  obtain ⟨t, runs, e⟩ : ∃ t, exec .secondTick s = .next t ∧ s.nextTick.Evaluates t :=
    ⟨_, exec_secondTick free, s.nextTick.evaluateAll_evaluates⟩
  refine ⟨t, runs, fun below => e.seconds.trans (nextSeconds_below below), fun h => ⟨fun never => ?_,
    fun p passed i halved whole => ?_, e.hoist_eq h⟩, fun found => ?_, fun none_ => ?_, e.records.1, e.records.2, ?_⟩
  · exact (e.status h).trans (State.evaluatedStatus_none _ never)
  · have interval : (s.hoist h).effectiveInterval s.proofInterval = i := by
      by_cases warned : (s.hoist h).warned
      · rw [Hoist.effectiveInterval_warned warned, halved warned]
      · rw [Hoist.effectiveInterval_unwarned warned, whole warned]
    have evaluated : (t.hoist h).proofStatus = proofStatusOf (t.seconds - p) i := by
      rw [← interval, e.seconds]
      exact (e.status h).trans (State.evaluatedStatus_some s.nextTick passed)
    exact ⟨fun within => evaluated.trans (proofStatusOf_current within),
      fun past within => evaluated.trans (proofStatusOf_due past within),
      fun past beyond => evaluated.trans (proofStatusOf_lapsed past beyond)⟩
  · obtain ⟨h, out, running⟩ := found
    rw [e.status] at out
    exact e.latched.trans (if_pos ⟨h, State.degrades_iff.2 ⟨out, running⟩⟩)
  · refine e.latched.trans (if_neg fun ⟨h, degrades⟩ => ?_)
    obtain ⟨out, running⟩ := State.degrades_iff.1 degrades
    rcases none_ h with settled | closed
    · rw [e.status] at settled
      exact out settled
    · exact Bool.false_ne_true (closed.symm.trans running)
  · rw [e.seconds]
    exact e.only

end Sys2Proof.Machine
end

section
/-! ## O55: PROVE and PROOF_WRITE -/

namespace Sys2Proof.Machine

/-! ### PROVE (R162) -/

theorem Hoist.atState_proving (r : Hoist) (now : Nat) (t : TimerSettings) : r.atState now t .proving =
    { r.atRest .proving with proofTimer := some (now + 1000 * t.proofLimit) } := rfl

theorem Hoist.station_eq {r : Hoist} {k : HoistConfig} (config : r.config = some k) :
    r.station = byte k.driveStation := by
  unfold Hoist.station
  rw [config]
  rfl

theorem State.prove_some {s : State} {b : Byte} {h : HoistId} (found : s.configuredHoist b = some h) : s.prove b =
    if (s.hoist h).state ≠ .parked ∨ (s.hoist h).freshness ≠ .fresh then s.refuse .state
    else State.accept ((s.setHoist h ((s.hoist h).atState s.now s.timers .proving)).give .field
      (makeFrame (s.hoist h).station kindProofReq [])) := by
  unfold State.prove
  rw [found, ← State.enter_rest s h rfl]
  dsimp only
  by_cases parked : (s.hoist h).state = .parked <;> simp [parked]

/-! ### The envelopes that a changed ceiling reaches (R158) -/

theorem State.recompute_alone (s : State) (h : HoistId) : s.HoistsAlone (s.recompute h) := rfl

theorem State.recomputeEach_spec (s : State) {hs : List HoistId} (nodup : hs.Nodup) :
    s.HoistsAlone (hs.foldl (fun s h => s.recompute h) s) ∧ ∀ y,
      (y ∈ hs → (hs.foldl (fun s h => s.recompute h) s).hoist y = (s.hoist y).enveloped s) ∧
        (y ∉ hs → (hs.foldl (fun s h => s.recompute h) s).hoist y = s.hoist y) := by
  refine State.hoist_foldl (inv := s.HoistsAlone) (R := fun r r' => r' = r.enveloped s)
    (fun u h ok => ok.trans (u.recompute_alone h)) (fun u h ok => ?_) (fun u h y ne => u.hoist_recompute_other ne) nodup
    (.same s)
  rw [State.hoist_recompute_enveloped]
  unfold Hoist.enveloped
  rw [ok.envelope, ok.envelope]

theorem State.recomputeDegraded_alone (s : State) : s.HoistsAlone s.recomputeDegraded :=
  (s.recomputeEach_spec (List.Nodup.filter _ (by decide))).1

theorem State.hoist_recomputeDegraded (s : State) (h : HoistId) : s.recomputeDegraded.hoist h =
    if (s.hoist h).proofStatus = .current then s.hoist h else (s.hoist h).enveloped s := by
  obtain ⟨reached, spared⟩ := (s.recomputeEach_spec (hs := allHoists.filter fun h => (s.hoist h).proofStatus != .current)
    (List.Nodup.filter _ (by decide))).2 h
  split
  · exact spared fun m => by simpa [*] using (List.mem_filter.1 m).2
  · exact reached (List.mem_filter.2 ⟨mem_allHoists h, by simpa⟩)

theorem State.recomputeDegraded_proofStatus (s : State) (h : HoistId) :
    (s.recomputeDegraded.hoist h).proofStatus = (s.hoist h).proofStatus := by
  rw [State.hoist_recomputeDegraded]
  split <;> rfl

/-! ### PROOF_WRITE (R158) -/

/-- The part with an accepted PROOF_WRITE's two values, before what follows from them. -/
def State.withProof (s : State) (hours ceiling : Nat) : State :=
  { s with proofInterval := hours * 3600, degradedCeiling := ceiling }

/-- What follows from an accepted PROOF_WRITE: every status is evaluated, and a changed ceiling recomputes envelopes. -/
def State.proofWritten (s : State) (hours ceiling : Nat) : State :=
  if s.degradedCeiling = ceiling then (s.withProof hours ceiling).evaluateAll
  else (s.withProof hours ceiling).evaluateAll.recomputeDegraded

theorem State.evaluateProof_received (s : State) (h : HoistId) :
    (s.received .uplink).evaluateProof h = (s.evaluateProof h).received .uplink := by
  rw [State.evaluateProof_eq, State.evaluateProof_eq, apply_ite (State.received · .uplink)]
  rfl

theorem State.evaluateAll_received (s : State) : (s.received .uplink).evaluateAll = s.evaluateAll.received .uplink :=
  List.foldl_hom (State.received · .uplink) State.evaluateProof_received

theorem State.recomputeDegraded_received (s : State) :
    (s.received .uplink).recomputeDegraded = s.recomputeDegraded.received .uplink :=
  List.foldl_hom (State.received · .uplink) fun _ _ => rfl

theorem State.proofWritten_received (s : State) (hours ceiling : Nat) :
    (s.received .uplink).proofWritten hours ceiling = (s.proofWritten hours ceiling).received .uplink := by
  have set : (s.received .uplink).withProof hours ceiling = (s.withProof hours ceiling).received .uplink := rfl
  unfold State.proofWritten
  rw [set, State.evaluateAll_received, State.recomputeDegraded_received, apply_ite (State.received · .uplink)]
  rfl

theorem State.proofWrite_eq (s : State) (hours ceiling : Nat) : s.proofWrite hours ceiling =
    if 1 ≤ hours ∧ hours ≤ 720 ∧ 500 ≤ ceiling ∧ ceiling ≤ 5000 then (s.proofWritten hours ceiling).accept
    else s.refuse .range := by
  unfold State.proofWrite State.proofWritten
  simp only [and_assoc]
  refine if_congr Iff.rfl (congrArg State.accept ?_) rfl
  by_cases same : s.degradedCeiling = ceiling
  · rw [if_pos same, if_neg (by simp [same])]
    rfl
  · rw [if_neg same, if_pos (by simp [same])]
    rfl

section

variable (s : State) (hours ceiling : Nat)

theorem State.proofWritten_only : (s.withProof hours ceiling).OnlyHoists (s.proofWritten hours ceiling) := by
  have evaluated := (s.withProof hours ceiling).evaluateAll_evaluates.only
  unfold State.proofWritten
  split
  · exact evaluated
  · refine evaluated.trans ?_
    unfold State.OnlyHoists
    rw [State.recomputeDegraded_alone]

theorem State.proofWritten_status (h : HoistId) :
    ((s.proofWritten hours ceiling).hoist h).proofStatus = (s.withProof hours ceiling).evaluatedStatus (s.hoist h) := by
  have evaluated := (s.withProof hours ceiling).evaluateAll_evaluates.status h
  unfold State.proofWritten
  split
  · exact evaluated
  · exact (State.recomputeDegraded_proofStatus _ h).trans evaluated

/-- A hoist whose proof is not CURRENT has its envelope under the new ceiling (R158). -/
theorem State.proofWritten_envelope (changed : s.degradedCeiling ≠ ceiling) {h : HoistId}
    (old : ((s.proofWritten hours ceiling).hoist h).proofStatus ≠ .current) :
    ((s.proofWritten hours ceiling).hoist h).envDown =
        (s.proofWritten hours ceiling).envelope ((s.proofWritten hours ceiling).hoist h) .down ∧
      ((s.proofWritten hours ceiling).hoist h).envUp =
        (s.proofWritten hours ceiling).envelope ((s.proofWritten hours ceiling).hoist h) .up := by
  have last : s.proofWritten hours ceiling = (s.withProof hours ceiling).evaluateAll.recomputeDegraded := if_neg changed
  rw [last] at old ⊢
  generalize (s.withProof hours ceiling).evaluateAll = u at old ⊢
  rw [State.recomputeDegraded_proofStatus] at old
  have self := Hoist.enveloped_eq u.recomputeDegraded_alone ((u.hoist_recomputeDegraded h).trans (if_neg old))
  exact ⟨congrArg Hoist.envDown self, congrArg Hoist.envUp self⟩

end

/-- Settles O55: PROVE by its checks, PROOF_WRITE by the statuses evaluated and the envelopes recomputed. -/
theorem proveAndProofWrite : Obligations.ProveAndProofWrite := by
  intro o s takes
  refine ⟨fun b h k number config => ?_, fun hours ceiling => ?_⟩
  · have found : (s.received .uplink).configuredHoist b = some h := State.configuredHoist_eq number config
    intro r
    refine ⟨fun unfit => ?_, fun parked fresh => ?_⟩
    · exact order_answered takes ((State.prove_some found).trans (if_pos unfit))
    · rw [← Hoist.station_eq config, ← Hoist.atState_proving]
      exact order_answered takes ((State.prove_some found).trans
        (if_neg (not_or.2 ⟨not_not.2 parked, not_not.2 fresh⟩)))
  · intro fits
    refine ⟨fun beyond => order_answered takes ((State.proofWrite_eq ..).trans (if_neg beyond)), fun fit => ?_⟩
    have accepted : (s.received .uplink).proofWrite hours.toNat ceiling.toNat =
        ((s.proofWritten hours.toNat ceiling.toNat).received .uplink, ⟨.accepted, 0, []⟩) := by
      rw [State.proofWrite_eq, if_pos fit, State.proofWritten_received]
      rfl
    have only := s.proofWritten_only hours.toNat ceiling.toNat
    have interval : (s.proofWritten hours.toNat ceiling.toNat).proofInterval = 3600 * hours.toNat := by
      rw [only]
      exact Nat.mul_comm ..
    have limit : (s.proofWritten hours.toNat ceiling.toNat).degradedCeiling = ceiling.toNat := by rw [only]; rfl
    refine ⟨_, order_answered takes accepted, interval, limit, fun h p passed calm => ?_, fun h never => ?_,
      fun h changed old => s.proofWritten_envelope _ _ changed old, ?_⟩
    · have unwarned : ¬(s.hoist h).warned := fun ⟨l, latest, warning⟩ =>
        Bool.false_ne_true ((calm l latest).symm.trans warning)
      rw [State.proofWritten_status, State.evaluatedStatus_some _ passed, Hoist.effectiveInterval_unwarned unwarned]
      unfold proofStatusOf State.withProof
      dsimp only
      refine if_congr ?_ rfl (if_congr ?_ rfl rfl) <;> omega
    · rw [State.proofWritten_status, State.evaluatedStatus_none _ never]
    · rw [interval, limit, ← Nat.mul_comm hours.toNat]
      exact only

end Sys2Proof.Machine
end

section
/-! ## O58: READ_RECORD and LOG_CONTROL -/

namespace Sys2Proof.Machine

/-! ### READ_RECORD (R170) -/

/-- A move record behind what an answer says first, its flags as the sum of their bits (R186). -/
theorem append_recordData (start : List Byte) (x : MoveRecord) : start ++ recordData x =
    start ++ [byte (x.hoist.val + 1), byte x.outcome.code] ++ num32 x.startDepth ++ num32 x.endDepth ++ num32 x.target ++
      num24 x.travelled ++
      [byte x.carried.code,
        byte ((if x.waited then 1 else 0) + (if x.clamped then 2 else 0) + (if x.degraded then 4 else 0))] ++
      num16 x.duration := by
  simp only [recordData, moveFlagsCode, num8, List.append_assoc, List.cons_append, List.nil_append]

theorem State.readRecord_none {s : State} (bare : s.records = []) :
    s.readRecord = s.acceptData [0, 0, if s.overflow = true then 1 else 0] := by
  unfold State.readRecord
  rw [bare]
  rfl

theorem State.readRecord_some {s : State} {x : MoveRecord} {rest : List MoveRecord} (oldest : s.records = x :: rest) :
    s.readRecord = State.acceptData { s with records := rest }
      ([1, byte rest.length, if s.overflow = true then 1 else 0] ++ recordData x) := by
  unfold State.readRecord
  rw [oldest]
  rfl

/-! ### LOG_CONTROL (R171) -/

section

variable (s : State)

theorem State.logControl_off :
    s.logControl 0 = State.accept { s with records := [], overflow := false, logging := false } := rfl

theorem State.logControl_on : s.logControl 1 = State.accept { s with logging := true } := rfl

theorem State.logControl_range {b : Byte} (beyond : 1 < b.toNat) : s.logControl b = s.refuse .range := by
  unfold State.logControl
  rw [if_neg (by bv_omega), if_neg (by bv_omega)]

end

/-- Settles O58: READ_RECORD by whether a record is held, LOG_CONTROL by its setting. -/
theorem recordsReadAndLogControl : Obligations.RecordsReadAndLogControl := by
  intro o s takes
  refine ⟨fun bare => ?_, fun x rest oldest => ?_, fun b => ⟨?_, ?_, fun beyond => ?_⟩⟩
  · exact order_answered takes (State.readRecord_none (s := s.received .uplink) bare)
  · rw [← append_recordData]
    exact order_answered takes (State.readRecord_some (s := s.received .uplink) oldest)
  · rintro rfl
    exact order_answered takes (State.logControl_off _)
  · rintro rfl
    exact order_answered takes (State.logControl_on _)
  · exact order_answered takes (State.logControl_range _ beyond)

end Sys2Proof.Machine
end

section
/-! ## O1, O3, O5: a step, a command, and the reset input -/

namespace Sys2Proof.Machine

/-- Settles O1: a step with a command waiting is that command's arm. -/
theorem stepTakesFrontCommand : Obligations.StepTakesFrontCommand := by
  intro c rest s waits
  unfold step
  rw [waits]

/-! ### The reset input (R179) -/

/-- The effect of every command but POWER_ON and the edges of the reset input is held back in reset. -/
theorem exec_eq_event (i : Instr) (power : ∀ x, i ≠ .powerOn x) (assert : i ≠ .resetInputAssert)
    (release : ∀ x, i ≠ .resetInputRelease x) : ∃ f : State → State, ∀ s, exec i s = event s f := by
  cases i with
  | powerOn x => exact absurd rfl (power x)
  | resetInputAssert => exact absurd rfl assert
  | resetInputRelease x => exact absurd rfl (release x)
  | allStop o =>
    by_cases all : o.address = broadcast
    · exact ⟨_, fun s => if_pos all⟩
    · exact ⟨_, fun s => if_neg all⟩
  | _ => exact ⟨_, fun _ => rfl⟩

/-- Settles O5: a command held back changes nothing. -/
theorem heldInReset : Obligations.HeldInReset := by
  intro i s held power assert release
  obtain ⟨f, effect⟩ := exec_eq_event i power assert release
  rw [effect, event_held s f held]

/-- A command out of reset is its effect. -/
theorem exec_free {i : Instr} {s t : State} {f : State → State} (effect : ∀ s, exec i s = event s f)
    (free : s.resetInput = false) (does : f s = t) : exec i s = .next t := by
  rw [effect, event_free s f free, does]

/-! ### RESTART (R180, R184) -/

theorem exec_restart_taken {s : State} {o : OrderHead} (x : Straps) (takes : s.Takes o) : exec (.restart o x) s =
    .next (((s.received .uplink).answer o codeRestart ⟨.accepted, 0, []⟩).restarted x) := by
  obtain ⟨free, own⟩ := takes
  refine exec_free (fun _ => rfl) free ?_
  exact if_pos own

theorem exec_restart_dropped {s : State} {o : OrderHead} (x : Straps) (free : s.resetInput = false)
    (other : s.consumes o = false) : exec (.restart o x) s = .next ((s.received .uplink).dropOrder o) := by
  refine exec_free (fun _ => rfl) free ?_
  exact if_neg (Bool.eq_false_iff.1 other)

theorem restart_pending (o : OrderHead) (x : Straps) (s : State) :
    ∃ t, exec (.restart o x) s = .next t ∧ t.pending = s.pending := by
  cases held : s.resetInput with
  | true => exact ⟨s, heldInReset _ s held nofun nofun nofun, rfl⟩
  | false =>
    cases own : s.consumes o with
    | true => exact ⟨_, exec_restart_taken x ⟨held, own⟩, rfl⟩
    | false => exact ⟨_, exec_restart_dropped x held own, (dropOrder_works (q := .any) _ o).frame.1⟩

/-! ### Every command -/

theorem starts_pending {i : Instr} (start : Starts i) (s : State) :
    ∃ t, exec i s = .next t ∧ t.pending = s.pending := by
  obtain ⟨x, rfl⟩ | rfl | ⟨x, rfl⟩ | ⟨o, x, rfl⟩ := start
  · exact ⟨_, rfl, rfl⟩
  · exact ⟨_, rfl, rfl⟩
  · exact ⟨_, rfl, by split <;> rfl⟩
  · exact restart_pending o x s

/-- Settles O3: the starts one by one, and every other command by what works on the part (`exec_works`). -/
theorem everyCommandCompletes : Obligations.EveryCommandCompletes := by
  intro i s
  by_cases start : Starts i
  · obtain ⟨t, next, pending⟩ := starts_pending start s
    exact ⟨t, next, pending, fun other => absurd start other⟩
  · obtain ⟨t, next, works, -⟩ := exec_works i s start
    obtain ⟨pending, input, pins, address⟩ := works.frame
    obtain ⟨new, given, -⟩ := works.gives
    exact ⟨t, next, pending, fun _ => ⟨input, pins, address, new, given⟩⟩

end Sys2Proof.Machine
end

section
/-! ## O4, O6: the values at power-on -/

namespace Sys2Proof.Machine

/-! ### What the part holds at power-on, by name -/

section

variable (x : Straps)

@[simp] theorem State.hoist_powerOnWith (h : HoistId) : (State.powerOnWith x).hoist h = .initial := State.bare_of_hoists rfl h

@[simp] theorem State.landing_powerOnWith (l : LandingId) : (State.powerOnWith x).landing l = .initial := by
  simp [State.landing, State.powerOnWith]

@[simp] theorem State.mass_powerOnWith (m : MassId) : (State.powerOnWith x).mass m = .initial := by
  simp [State.mass, State.powerOnWith]

@[simp] theorem State.group_powerOnWith (g : GroupId) : (State.powerOnWith x).group g = 0 := by
  simp [State.group, State.powerOnWith]

@[simp] theorem State.comp_powerOnWith (c : Compartment) : (State.powerOnWith x).comp c = .initial := by cases c <;> rfl

@[simp] theorem ZoneTable.entry_blank (z : Nat) : ZoneTable.blank.entry z = .blank := by
  unfold ZoneTable.entry ZoneTable.blank
  rw [Vector.toList_replicate, List.getD_eq_getElem?_getD, List.getElem?_replicate]
  split <;> rfl

theorem State.atPowerOn_powerOnWith : (State.powerOnWith x).AtPowerOn where
  shaft := rfl
  comp c := by rw [State.comp_powerOnWith]; exact ⟨rfl, rfl, rfl⟩
  tables c := by
    rw [State.comp_powerOnWith]
    exact ⟨⟨rfl, rfl⟩, fun z => ⟨ZoneTable.entry_blank z, ZoneTable.entry_blank z⟩⟩
  landing := State.landing_powerOnWith x
  hoist h := by rw [State.hoist_powerOnWith]; rfl
  mass := State.mass_powerOnWith x
  group := State.group_powerOnWith x
  timers := rfl
  proof := ⟨rfl, rfl⟩
  attention := ⟨rfl, rfl, rfl⟩
  records := ⟨rfl, rfl, rfl⟩
  links := rfl
  seconds := rfl

end

/-- The pins, the ports and the queue of commands are no part of the power-on values. -/
theorem State.AtPowerOn.besides {s : State} (on : s.AtPowerOn) (pins address : Straps) (input up field : Bool)
    (out : List (Port × Frame)) (waiting : List Instr) :
    State.AtPowerOn { s with
      strapPins := pins, strapAddress := address, resetInput := input, uplinkReceiving := up, fieldReceiving := field
      outbox := out, pending := waiting } :=
  ⟨on.shaft, on.comp, on.tables, on.landing, on.hoist, on.mass, on.group, on.timers, on.proof, on.attention, on.records,
    on.links, on.seconds⟩

/-- Settles O4: each start leaves `State.powerOnWith`, with its own pins, ports and queue. -/
theorem startsLeavePowerOnValues : Obligations.StartsLeavePowerOnValues := by
  have on := fun x => (State.atPowerOn_powerOnWith x).besides
  refine ⟨fun x s => ?_, fun s => ?_, fun x s held => ?_, fun o x s takes => ?_⟩
  · exact ⟨_, rfl, on x .., rfl, rfl, rfl, rfl⟩
  · exact ⟨_, rfl, on s.strapPins .., rfl, rfl, rfl, rfl⟩
  · exact ⟨_, congrArg Host.Outcome.next (if_pos held), on x .., rfl, rfl, rfl, rfl, rfl⟩
  · exact ⟨_, exec_restart_taken x takes, on x .., rfl, takes.1, rfl, rfl, rfl⟩

/-! ### The invariants -/

theorem State.reset_bare : State.reset.Bare := State.bare_of_hoists rfl

theorem State.reset_sound : State.reset.Sound := by
  refine ⟨⟨rfl, rfl⟩, ⟨Nat.zero_le _, nofun⟩, fun h => ?_⟩
  rw [State.reset_bare]
  exact ⟨rfl, rfl, rfl, rfl, rfl, fun _ => ⟨rfl, rfl⟩⟩

theorem State.reset_following : State.reset.Following := by
  intro h
  rw [State.reset_bare]
  rfl

theorem State.reset_handoversSound : State.reset.HandoversSound := by
  have landings : ∀ l, State.reset.landing l = .initial := State.landing_powerOnWith 9
  have none : State.reset.handovers = [] := by simp [State.handovers, landings, Landing.initial]
  constructor
  case one => rw [none]; exact .nil
  case docked => intro h docked; rw [State.reset_bare] at docked; cases docked
  case serves => intro l rec record; rw [landings] at record; cases record
  case surveyed => intro l survey; rw [landings] at survey; cases survey
  case survey => intro l; rw [landings]; exact ⟨⟨nofun, nofun⟩, rfl⟩
  case holder => intro l h held; rw [landings] at held; cases held
  case two => intro l; rw [landings]; exact Nat.zero_le 2
  case each => intro l v inside; rw [landings] at inside; cases inside
  case sides => intro l v inside; rw [landings] at inside; cases inside
  case granted => intro l _ _ v inside; rw [landings] at inside; cases inside

theorem State.reset_runsHeld : State.reset.RunsHeld := by
  have comps : ∀ c, State.reset.comp c = .initial := State.comp_powerOnWith 9
  refine ⟨fun c count => ?_, fun c supervised => ?_, fun h heard => ?_, fun h l latest => ?_, fun h supervised => ?_⟩
  · rw [comps] at count
    exact absurd rfl count
  · rw [comps] at supervised
    cases supervised
  · rw [State.reset_bare] at heard
    exact absurd rfl heard
  · rw [State.reset_bare] at latest
    cases latest
  · rw [State.reset_bare] at supervised
    cases supervised

/-- Settles O6: at power-on no hoist is configured, no landing is defined and no compartment is supervised. -/
theorem resetStateIsSound : Obligations.ResetStateIsSound := by
  obtain ⟨claimed, ranked⟩ := State.reset_bare.claimed
  exact ⟨State.atPowerOn_powerOnWith 9, State.reset_sound, State.reset_following, State.claimsSound_iff.2 claimed,
    (State.rankOrder_iff claimed).2 ranked, State.reset_handoversSound, State.reset_runsHeld, rfl⟩

end Sys2Proof.Machine
end

section
/-! ## O11: frames that reach no block -/

namespace Sys2Proof.Machine

/-! ### The link error indicators (R182) -/

section

variable (s : State)

theorem State.indicate_check : s.indicate .check = s.linked { s.links with check := true } := rfl

theorem State.indicate_length : s.indicate .length = s.linked { s.links with length := true } := rfl

theorem State.indicate_target : s.indicate .target = s.linked { s.links with target := true } := rfl

theorem State.indicate_order : s.indicate .order = s.linked { s.links with order := true } := rfl

end

/-! ### The fate of a frame (R174, R175) -/

section

variable {p : Port} {f : Frame}

theorem frameFate_check (bad : checkHolds f = false) : frameFate p f = .dropped .check := if_pos bad

variable (good : checkHolds f = true)

include good

theorem frameFate_passed (strange : knownKind f.kind = false) : frameFate p f = .passed := by
  unfold frameFate
  rw [if_neg (by rw [good]; decide), if_pos strange]

variable (known : knownKind f.kind = true)

include known

theorem frameFate_target (stray : f.address = 0 ∨ rightDirection p f.kind = false) :
    frameFate p f = .dropped .target := by
  unfold frameFate
  rw [if_neg (by rw [good]; decide), if_neg (by rw [known]; decide)]
  by_cases dead : f.address = 0
  · exact if_pos dead
  · rw [if_neg dead, if_pos (stray.resolve_left dead)]

theorem frameFate_length (live : f.address ≠ 0) (right : rightDirection p f.kind = true)
    (short : lengthSuits f.kind f.payload = false) : frameFate p f = .dropped .length := by
  unfold frameFate
  rw [if_neg (by rw [good]; decide), if_neg (by rw [known]; decide), if_neg live, if_neg (by rw [right]; decide),
    if_pos short]

end

/-! ### What a frame of each fate does -/

section

variable {s : State} (free : s.resetInput = false) {p : Port} {f : Frame}

include free

theorem exec_frameDropped {e : LinkError} (fate : frameFate p f = .dropped e) :
    exec (.frameDropped p f) s = .next ((s.received p).indicate e) := by
  refine exec_free (fun _ => rfl) free ?_
  rw [fate]

theorem exec_framePassThrough (fate : frameFate p f = .passed) :
    exec (.framePassThrough p f) s = .next ((s.received p).give (Port.other p) f) := by
  refine exec_free (fun _ => rfl) free ?_
  rw [fate]

variable {a : Byte} (live : a ≠ 0)

include live

/-- A REPORT of a station that is no configured hoist's (R177). -/
theorem exec_report_stray (w : ReportWire) (stray : s.driveAt a = none) : exec (.report a w) s =
    .next ((s.received .field).give .uplink (makeFrame a kindReport (reportBytes w))) := by
  refine exec_free (fun _ => rfl) free ((if_neg live).trans ?_)
  rw [show (s.received .field).driveAt a = none from stray]

/-- A SHUTTLE_REPORT of a station that is no defined landing's (R178). -/
theorem exec_shuttleReport_stray {w : ShuttleWire} (short : w.survey.length ≤ 8) (stray : s.shuttleAt a = none) :
    exec (.shuttleReport a w) s =
      .next ((s.received .field).give .uplink (makeFrame a kindShuttleReport (shuttleBytes w))) := by
  refine exec_free (fun _ => rfl) free ((if_neg live).trans ((if_neg (Nat.not_lt.2 short)).trans ?_))
  have still : (s.received .field).shuttlePath a w = s.received .field := by
    unfold State.shuttlePath
    rw [show (s.received .field).shuttleAt a = none from stray]
  rw [still]

end

/-- Settles O11, by the fate of the frame (R175) and the station of the report. -/
theorem framesThatReachNoBlock : Obligations.FramesThatReachNoBlock := by
  intro s free
  refine ⟨fun p => ?_, fun p f bad => ?_, fun p f good known stray => ?_, fun p f good known live right short => ?_,
    fun p f good strange => ?_, fun a w live stray => ?_, fun a w live short stray => ?_⟩
  · refine exec_free (fun _ => rfl) free ?_
    cases p <;> rfl
  · rw [exec_frameDropped free (frameFate_check bad), State.indicate_check, State.received_links]
  · rw [exec_frameDropped free (frameFate_target good known stray), State.indicate_target, State.received_links]
  · rw [exec_frameDropped free (frameFate_length good known live right short), State.indicate_length,
      State.received_links]
  · rw [exec_framePassThrough free (frameFate_passed good strange)]
    cases p <;> rfl
  · exact exec_report_stray free live w stray
  · exact exec_shuttleReport_stray free live short stray

end Sys2Proof.Machine
end

section
/-! ## O12, O13: orders that are dropped, orders that are taken -/

namespace Sys2Proof.Machine

/-! ### The orders of the table -/

/-- An ORDER of the table, RESTART and the broadcast ALL_STOP apart, takes effect as R180 says, with a body that refuses or
carries it out. -/
theorem exec_eq_order {i : Instr} {o : OrderHead} {code : Byte} (table : tableOrder i = some (o, code))
    (plain : ∀ x, i ≠ .restart o x) (addressed : ¬(o.address = 63 ∧ i = .allStop o)) :
    ∃ body : State → State × Reply, (∀ s, exec i s = order s o code body) ∧ ∀ s, Replied s (body s) := by
  cases i <;> cases table
  case restart x => exact absurd rfl (plain x)
  case allStop =>
    exact ⟨_, fun s => if_neg fun all => addressed ⟨all, rfl⟩, .allStop⟩
  case landingWrite =>
    exact ⟨_, fun _ => rfl, fun s => .check (.landingRemove s _) (.landingWrite s _ _ _ _ _ _)⟩
  case shaftWrite => exact ⟨_, fun _ => rfl, fun s => .shaftWrite s _ _ _ _⟩
  case zoneWriteEntry => exact ⟨_, fun _ => rfl, fun s => .zoneWriteEntry s _ _ _ _ _ _⟩
  case zoneWriteCount => exact ⟨_, fun _ => rfl, fun s => .zoneWriteCount s _ _⟩
  case zoneCommit => exact ⟨_, fun _ => rfl, fun s => .zoneCommit s _⟩
  case zoneQuery => exact ⟨_, fun _ => rfl, fun s => .zoneQuery s _ _ _⟩
  case landingRemove => exact ⟨_, fun _ => rfl, fun s => .landingRemove s _⟩
  case hoistConfig => exact ⟨_, fun _ => rfl, fun s => .hoistConfig s _ _⟩
  case hoistQuery => exact ⟨_, fun _ => rfl, fun s => .hoistQuery s _⟩
  case engage => exact ⟨_, fun _ => rfl, fun s => .engage s _⟩
  case park => exact ⟨_, fun _ => rfl, fun s => .park s _⟩
  case move => exact ⟨_, fun _ => rfl, fun s => .move s _ _ _⟩
  case abort => exact ⟨_, fun _ => rfl, fun s => .abort s _⟩
  case resetHoist => exact ⟨_, fun _ => rfl, fun s => .resetHoist s _⟩
  case ceiling => exact ⟨_, fun _ => rfl, fun s => .ceiling s _ _⟩
  case groupWrite => exact ⟨_, fun _ => rfl, fun s => .groupWrite s _ _⟩
  case groupCeiling => exact ⟨_, fun _ => rfl, fun s => .groupCeiling s _ _⟩
  case groupStop => exact ⟨_, fun _ => rfl, fun s => .groupStop s _⟩
  case transfer => exact ⟨_, fun _ => rfl, fun s => .transfer s _ _ _ _⟩
  case abortTransfer => exact ⟨_, fun _ => rfl, fun s => .abortTransfer s _⟩
  case resolve => exact ⟨_, fun _ => rfl, fun s => .resolve s _ _⟩
  case blockSlot => exact ⟨_, fun _ => rfl, fun s => .blockSlot s _ _⟩
  case unblockSlot => exact ⟨_, fun _ => rfl, fun s => .unblockSlot s _ _⟩
  case landingQuery => exact ⟨_, fun _ => rfl, fun s => .landingQuery s _⟩
  case declareMass => exact ⟨_, fun _ => rfl, fun s => .declareMass s _ _ _ _ _⟩
  case removeMass => exact ⟨_, fun _ => rfl, fun s => .removeMass s _⟩
  case verify => exact ⟨_, fun _ => rfl, fun s => .verify s _⟩
  case releaseScope => exact ⟨_, fun _ => rfl, fun s => .releaseScope s _⟩
  case admitScope => exact ⟨_, fun _ => rfl, fun s => .admitScope s _⟩
  case massQuery => exact ⟨_, fun _ => rfl, fun s => .massQuery s _⟩
  case tallyQuery => exact ⟨_, fun _ => rfl, fun s => .acceptData s _⟩
  case prove => exact ⟨_, fun _ => rfl, fun s => .prove s _⟩
  case proofWrite => exact ⟨_, fun _ => rfl, fun s => .proofWrite s _ _⟩
  case maskWrite => exact ⟨_, fun _ => rfl, fun s => .maskWrite s _⟩
  case scopeOptions => exact ⟨_, fun _ => rfl, fun s => .scopeOptions s _ _ _⟩
  case status => exact ⟨_, fun _ => rfl, fun s => .status s⟩
  case readRecord => exact ⟨_, fun _ => rfl, fun s => .readRecord s⟩
  case logControl => exact ⟨_, fun _ => rfl, fun s => .logControl s _⟩
  case timerWrite => exact ⟨_, fun _ => rfl, fun s => .timerWrite s _⟩

/-! ### Orders that are not carried out (R180) -/

/-- An ORDER to an address that is not the part's sets ORDER when it is broadcast and TARGET otherwise. -/
theorem State.dropOrder_received (s : State) (o : OrderHead) : (s.received .uplink).dropOrder o =
    { s.linked (if o.address = 63 then { s.links with order := true } else { s.links with target := true }) with
      uplinkReceiving := false } := by
  unfold State.dropOrder
  by_cases all : o.address = 63
  · rw [if_pos all, if_pos (show o.address = broadcast from all)]
    rfl
  · rw [if_neg all, if_neg (show o.address ≠ broadcast from all)]
    rfl

section

variable {s : State} {o : OrderHead} {code : Byte}

theorem exec_tableOrder_dropped {i : Instr} (table : tableOrder i = some (o, code)) (free : s.resetInput = false)
    (other : s.consumes o = false) (addressed : ¬(o.address = 63 ∧ i = .allStop o)) :
    exec i s = .next ((s.received .uplink).dropOrder o) := by
  by_cases restarts : ∃ x, i = .restart o x
  · obtain ⟨x, rfl⟩ := restarts
    exact exec_restart_dropped x free other
  · obtain ⟨body, effect, -⟩ := exec_eq_order table (not_exists.1 restarts) addressed
    rw [effect, order_dropped s o code body free other]

theorem exec_orderDropped {params : List Byte} (free : s.resetInput = false) (other : s.consumes o = false)
    (carried : ¬(o.address = 63 ∧ code = 0x1A ∧ params = [])) :
    exec (.orderDropped o code params) s = .next ((s.received .uplink).dropOrder o) := by
  refine exec_free (fun _ => rfl) free (if_neg (not_or.2 ⟨Bool.eq_false_iff.1 other, fun all => carried ?_⟩))
  obtain ⟨address, stops⟩ := all
  simp only [plainAllStop, Bool.and_eq_true, beq_iff_eq, List.isEmpty_iff] at stops
  exact ⟨address, stops⟩

theorem orderFault_target {params : List Byte} (unknown : orderLengths code = none) :
    orderFault code params = some .target := by
  unfold orderFault
  rw [unknown]

theorem orderFault_range {params : List Byte} {ns : List Nat} (known : orderLengths code = some ns)
    (length : params.length ∉ ns) : orderFault code params = some .range := by
  unfold orderFault
  rw [known]
  exact if_neg (by rwa [List.contains_iff_mem])

/-- An ORDER to the part that fails the order table is answered with the check it fails. -/
theorem exec_unknownOrder {params : List Byte} {r : Result} (takes : s.Takes o) (fault : orderFault code params = some r) :
    exec (.unknownOrder o code params) s =
      .next ((s.linked { s.links with order := true }).answered o code r 0 []) := by
  obtain ⟨free, own⟩ := takes
  refine exec_free (fun _ => rfl) free ?_
  dsimp only
  rw [fault]
  exact if_pos own

end

/-- Settles O12: to the part by the check that fails, to others by the address. -/
theorem ordersNotCarriedOut : Obligations.OrdersNotCarriedOut := by
  refine ⟨fun o code params s takes => ⟨fun unknown => ?_, fun ns known length => ?_⟩, ?_⟩
  · exact exec_unknownOrder takes (orderFault_target unknown)
  · exact exec_unknownOrder takes (orderFault_range known length)
  · rintro i o code s free other (⟨params, rfl, carried⟩ | ⟨table, addressed⟩)
    · rw [exec_orderDropped free other carried, State.dropOrder_received]
    · rw [exec_tableOrder_dropped table free other addressed, State.dropOrder_received]

/-! ### One answer each (R180, R181) -/

/-- Settles O13: RESTART is answered before it takes effect, every other ORDER after (`order_answers`). -/
theorem oneAnswerEach : Obligations.OneAnswerEach := by
  intro i o code s table takes
  by_cases restarts : ∃ x, i = .restart o x
  · obtain ⟨x, rfl⟩ := restarts
    cases table
    refine ⟨_, .accepted, 0, [], [], exec_restart_taken x takes, ?_, nofun, fun refused => absurd rfl refused⟩
    rw [List.append_nil]
    rfl
  · obtain ⟨body, effect, each⟩ := exec_eq_order table (not_exists.1 restarts) fun all => takes.not_broadcast all.1
    rw [effect]
    exact order_answers s o code body each takes

end Sys2Proof.Machine
end

section
/-! ## O60: a frame reads back as its command -/

namespace Sys2Proof

open Sys2Proof.Machine

/-! ### Fields (R173) -/

theorem read16_be16 (w : Half) : read16 (w.extractLsb' 8 8) (w.extractLsb' 0 8) = w :=
  (BitVec.extractLsb'_append_extractLsb'_eq_extractLsb' (start₂ := 8) rfl).trans BitVec.extractLsb'_eq_self

theorem read32_be32 (w : Word) :
    read32 (w.extractLsb' 24 8) (w.extractLsb' 16 8) (w.extractLsb' 8 8) (w.extractLsb' 0 8) = w := by
  unfold read32
  rw [BitVec.extractLsb'_append_extractLsb'_eq_extractLsb' (start₂ := 24) (start₁ := 16) rfl,
    BitVec.extractLsb'_append_extractLsb'_eq_extractLsb' (start₂ := 16) (start₁ := 8) rfl,
    BitVec.extractLsb'_append_extractLsb'_eq_extractLsb' (start₂ := 8) (start₁ := 0) rfl, BitVec.extractLsb'_eq_self]

/-! ### Codes and lengths that the order table does not have (R180) -/

/-- The order table gives the code this parameter length (R180, R186). -/
def takesLength (code : Byte) (n : Nat) : Bool := (orderLengths code).any (·.contains n)

theorem takesLength_of_fault {code : Byte} {params : List Byte} (fault : (orderFault code params).isSome = true) :
    takesLength code params.length = false := by
  unfold orderFault at fault
  unfold takesLength
  cases known : orderLengths code with
  | none => rfl
  | some ns =>
    rw [known] at fault
    dsimp only at fault
    split at fault
    · cases fault
    · exact Bool.eq_false_iff.2 ‹_›

section

variable {pins : Straps} {o : OrderHead} {code : Byte} {n : Nat}

/-- A code of another row is passed over. -/
theorem if_otherCode {c : Byte} {x y : Option Instr} (known : takesLength c n = true) (fault : takesLength code n = false)
    (rest : y = none) : (if code = c then x else y) = none :=
  (if_neg (by rintro rfl; rw [known] at fault; cases fault)).trans rest

theorem readOrder0_none (fault : takesLength code 0 = false) : readOrder0 pins o code = none := by
  unfold readOrder0
  iterate 5 refine if_otherCode (by decide) fault ?_
  rfl

theorem readOrder1_none (fault : takesLength code 1 = false) (a : Byte) : readOrder1 o code a = none := by
  unfold readOrder1
  iterate 16 refine if_otherCode (by decide) fault ?_
  rfl

theorem readOrder2_none (fault : takesLength code 2 = false) (a b : Byte) : readOrder2 o code a b = none := by
  unfold readOrder2
  iterate 6 refine if_otherCode (by decide) fault ?_
  rfl

theorem readOrder3_none (fault : takesLength code 3 = false) (a b c : Byte) : readOrder3 o code a b c = none := by
  unfold readOrder3
  iterate 4 refine if_otherCode (by decide) fault ?_
  rfl

theorem readOrder4_none (fault : takesLength code 4 = false) (a b c d : Byte) : readOrder4 o code a b c d = none := by
  unfold readOrder4
  iterate 2 refine if_otherCode (by decide) fault ?_
  rfl

theorem readOrder6_none (fault : takesLength code 6 = false) (a b c d e f : Byte) :
    readOrder6 o code a b c d e f = none := by
  unfold readOrder6
  iterate 2 refine if_otherCode (by decide) fault ?_
  rfl

/-- An ORDER that fails the order table is no order of it. -/
theorem readOrder_none {params : List Byte} (fault : takesLength code params.length = false) :
    readOrder pins o code params = none := by
  unfold readOrder
  split
  · exact readOrder0_none fault
  · exact readOrder1_none fault _
  · exact readOrder2_none fault _ _
  · exact readOrder3_none fault _ _ _
  · exact readOrder4_none fault _ _ _ _
  · exact readOrder6_none fault _ _ _ _ _ _
  · exact if_otherCode (n := 9) (by decide) fault rfl
  · exact if_otherCode (n := 10) (by decide) fault rfl
  · exact if_otherCode (n := 12) (by decide) fault rfl
  · exact if_otherCode (n := 16) (by decide) fault rfl
  · exact if_otherCode (n := 17) (by decide) fault rfl
  · rfl

end

/-! ### Frames of each kind (R175 to R178, R180) -/

/-- A frame that its command arrives as reads back as the command, under the straps it was formed for. -/
def ReadsBack (i : Instr) : Prop :=
  ∀ (strap pins : Straps) (p : Port) (f : Frame), i.wellFormed strap = true → commandFrame i = some (p, f) →
    (∀ o x, i = .restart o x → x = pins) → frameCommand strap pins p f = i

namespace ReadsBack

theorem noFrame {i : Instr} (none_ : commandFrame i = none) : ReadsBack i := by
  intro strap pins p f _ frame
  rw [none_] at frame
  cases frame

theorem frameDropped (p : Port) (f : Frame) : ReadsBack (.frameDropped p f) := by
  intro strap pins _ _ formed frame _
  cases frame
  simp only [Instr.wellFormed, Bool.and_eq_true] at formed
  obtain ⟨-, dropped⟩ := formed
  unfold frameCommand
  cases fate : frameFate p f with
  | dropped e => rfl
  | passed | handled => rw [fate] at dropped; cases dropped

theorem framePassThrough (p : Port) (f : Frame) : ReadsBack (.framePassThrough p f) := by
  intro strap pins _ _ formed frame _
  cases frame
  simp only [Instr.wellFormed, Bool.and_eq_true, beq_iff_eq] at formed
  obtain ⟨-, passed⟩ := formed
  unfold frameCommand
  rw [passed]

/-- The fate of a command's frame is that of its row (`Laws.Wire`), so a frame that the part handles is left to read. -/
theorem handled {i : Instr} (wire : Laws.Wire.Statement i)
    (read : ∀ (strap pins : Straps) (p : Port) (f : Frame), i.wellFormed strap = true → commandFrame i = some (p, f) →
      (∀ o x, i = .restart o x → x = pins) → handledCommand strap pins f = some i) : ReadsBack i := by
  intro strap pins p f formed frame level
  obtain ⟨-, row⟩ := wire strap p f formed frame
  unfold frameCommand
  cases fate : frameFate p f with
  | dropped | passed => rw [fate] at row; exact row.symm
  | handled => rw [read strap pins p f formed frame level]

theorem demand (a m : Byte) (v : Half) : ReadsBack (.demand a m v) := by
  refine handled (Laws.Wire.demand a m v) fun strap pins p f _ frame _ => ?_
  cases frame
  exact congrArg (fun v => some (Instr.demand a m v)) (read16_be16 v)

theorem report (a : Byte) (w : ReportWire) : ReadsBack (.report a w) := by
  refine handled (Laws.Wire.report a w) fun strap pins p f _ frame _ => ?_
  cases frame
  change some (Instr.report a ⟨read32 _ _ _ _, read16 _ _, _, _, read32 _ _ _ _, _⟩) = _
  rw [read32_be32, read16_be16, read32_be32]

theorem shuttleReport (a : Byte) (w : ShuttleWire) : ReadsBack (.shuttleReport a w) := by
  refine handled (Laws.Wire.shuttleReport a w) fun strap pins p f _ frame _ => ?_
  cases frame
  rfl

/-! ### Orders (R180, R186) -/

section

variable {i : Instr} {o : OrderHead} {code : Byte} {params : List Byte} (wire : Laws.Wire.Statement i)
  (frame : commandFrame i = orderFrame o code params)

include wire frame

theorem order (read : ∀ strap pins : Straps, i.wellFormed strap = true → (∀ o x, i = .restart o x → x = pins) →
    orderCommand strap pins o code params = i) : ReadsBack i := by
  refine handled wire fun strap pins p f formed spelled level => ?_
  rw [frame] at spelled
  cases spelled
  exact congrArg some (read strap pins formed level)

theorem table (read : ∀ pins : Straps, readOrder pins o code params = some i) : ReadsBack i :=
  order wire frame fun strap pins _ _ => by
    unfold orderCommand
    rw [read]

end

/-- The strap level that RESTART carries is that of the pins it finds (R179). -/
theorem restart (o : OrderHead) (x : Straps) : ReadsBack (.restart o x) :=
  order (Laws.Wire.restart o x) rfl fun _ _ _ level => by
    rw [level o x rfl]
    rfl

/-- An ORDER to the part that fails the order table. -/
theorem unknownOrder (o : OrderHead) (code : Byte) (params : List Byte) : ReadsBack (.unknownOrder o code params) := by
  refine order (Laws.Wire.unknownOrder o code params) rfl fun strap pins formed _ => ?_
  simp only [Instr.wellFormed, Bool.and_eq_true, beq_iff_eq] at formed
  obtain ⟨⟨-, fault⟩, own⟩ := formed
  unfold orderCommand
  rw [readOrder_none (takesLength_of_fault fault)]
  exact if_pos own

/-- An ORDER to another address that fails the order table. -/
theorem orderDropped (o : OrderHead) (code : Byte) (params : List Byte) : ReadsBack (.orderDropped o code params) := by
  refine order (Laws.Wire.orderDropped o code params) rfl fun strap pins formed _ => ?_
  simp only [Instr.wellFormed, Bool.and_eq_true, bne_iff_ne] at formed
  obtain ⟨⟨-, fault⟩, other⟩ := formed
  unfold orderCommand
  rw [readOrder_none (takesLength_of_fault fault)]
  exact if_neg other

/-- A slot count of 0 is the removal (R18), and LANDING_WRITE has another. -/
theorem landingWrite (o : OrderHead) (l : Byte) (d : Word) (n m v t : Byte) : ReadsBack (.landingWrite o l d n m v t) := by
  refine order (Laws.Wire.landingWrite o l d n m v t) rfl fun strap pins formed _ => ?_
  simp only [Instr.wellFormed, Bool.and_eq_true, bne_iff_ne] at formed
  obtain ⟨-, slots⟩ := formed
  have read : readOrder pins o codeLandingWrite ([l] ++ be32 d ++ [n, m, v, t]) =
      some (.landingWrite o l (read32 (d.extractLsb' 24 8) (d.extractLsb' 16 8) (d.extractLsb' 8 8) (d.extractLsb' 0 8))
        n m v t) := if_neg slots
  unfold orderCommand
  rw [read, read32_be32]

theorem landingRemove (o : OrderHead) (l : Byte) (d : Word) (m v t : Byte) : ReadsBack (.landingRemove o l d m v t) :=
  table (Laws.Wire.landingRemove o l d m v t) rfl fun _ =>
    congrArg (fun d => some (Instr.landingRemove o l d m v t)) (read32_be32 d)

theorem shaftWrite (o : OrderHead) (f t : Word) (g x : Half) : ReadsBack (.shaftWrite o f t g x) := by
  refine table (Laws.Wire.shaftWrite o f t g x) rfl fun _ => ?_
  change some (Instr.shaftWrite o (read32 _ _ _ _) (read32 _ _ _ _) (read16 _ _) (read16 _ _)) = _
  rw [read32_be32, read32_be32, read16_be16, read16_be16]

theorem zoneWriteEntry (o : OrderHead) (c i : Byte) (u : Word) (v : Half) (k l : Byte) :
    ReadsBack (.zoneWriteEntry o c i u v k l) :=
  table (Laws.Wire.zoneWriteEntry o c i u v k l) rfl fun _ =>
    congrArg₂ (fun u v => some (Instr.zoneWriteEntry o c i u v k l)) (read32_be32 u) (read16_be16 v)

theorem hoistConfig (o : OrderHead) (h : Byte) (p : HoistParams) : ReadsBack (.hoistConfig o h p) := by
  refine table (Laws.Wire.hoistConfig o h p) rfl fun _ => ?_
  change some (Instr.hoistConfig o h ⟨_, _, _, read16 _ _, read16 _ _, _, _, read16 _ _, read16 _ _, read16 _ _, _⟩) = _
  simp only [read16_be16]

theorem timerWrite (o : OrderHead) (p : TimerParams) : ReadsBack (.timerWrite o p) := by
  refine table (Laws.Wire.timerWrite o p) rfl fun _ => ?_
  change some (Instr.timerWrite o
    ⟨read16 _ _, read16 _ _, _, read16 _ _, read16 _ _, _, _, read16 _ _, _, _, _⟩) = _
  simp only [read16_be16]

theorem move (o : OrderHead) (h : Byte) (t : Word) (p : Byte) : ReadsBack (.move o h t p) :=
  table (Laws.Wire.move o h t p) rfl fun _ => congrArg (fun t => some (Instr.move o h t p)) (read32_be32 t)

theorem declareMass (o : OrderHead) (m : Byte) (n : Half) (k p i : Byte) : ReadsBack (.declareMass o m n k p i) :=
  table (Laws.Wire.declareMass o m n k p i) rfl fun _ =>
    congrArg (fun n => some (Instr.declareMass o m n k p i)) (read16_be16 n)

theorem ceiling (o : OrderHead) (h : Byte) (v : Half) : ReadsBack (.ceiling o h v) :=
  table (Laws.Wire.ceiling o h v) rfl fun _ => congrArg (fun v => some (Instr.ceiling o h v)) (read16_be16 v)

theorem groupCeiling (o : OrderHead) (g : Byte) (v : Half) : ReadsBack (.groupCeiling o g v) :=
  table (Laws.Wire.groupCeiling o g v) rfl fun _ => congrArg (fun v => some (Instr.groupCeiling o g v)) (read16_be16 v)

theorem proofWrite (o : OrderHead) (i c : Half) : ReadsBack (.proofWrite o i c) :=
  table (Laws.Wire.proofWrite o i c) rfl fun _ =>
    congrArg₂ (fun i c => some (Instr.proofWrite o i c)) (read16_be16 i) (read16_be16 c)

theorem maskWrite (o : OrderHead) (x : Half) : ReadsBack (.maskWrite o x) :=
  table (Laws.Wire.maskWrite o x) rfl fun _ => congrArg (fun x => some (Instr.maskWrite o x)) (read16_be16 x)

end ReadsBack

/-- Settles O60, command by command: no frame, a frame of a kind of its own, an order of the table, or an order outside it. -/
theorem framesReadBack : Obligations.FramesReadBack := by
  intro strap pins i p f formed frame level
  suffices back : ReadsBack i from back strap pins p f formed frame level
  cases i with
  | powerOn | resetInputAssert | resetInputRelease | partialFrameDiscard | handoverTimerExpiry | surveyTimerExpiry
  | reportAgeExpiry | demandAgeExpiry | engageTimeout | parkTimeout | proofTimerExpiry | secondTick => exact .noFrame rfl
  | frameDropped p f => exact .frameDropped p f
  | framePassThrough p f => exact .framePassThrough p f
  | demand a m v => exact .demand a m v
  | report a w => exact .report a w
  | shuttleReport a w => exact .shuttleReport a w
  | unknownOrder o c ps => exact .unknownOrder o c ps
  | orderDropped o c ps => exact .orderDropped o c ps
  | shaftWrite o f t g x => exact .shaftWrite o f t g x
  | zoneWriteEntry o c i u v k l => exact .zoneWriteEntry o c i u v k l
  | landingWrite o l d n m v t => exact .landingWrite o l d n m v t
  | landingRemove o l d m v t => exact .landingRemove o l d m v t
  | hoistConfig o h p => exact .hoistConfig o h p
  | move o h t p => exact .move o h t p
  | ceiling o h v => exact .ceiling o h v
  | groupCeiling o g v => exact .groupCeiling o g v
  | declareMass o m n k p i => exact .declareMass o m n k p i
  | proofWrite o i c => exact .proofWrite o i c
  | maskWrite o x => exact .maskWrite o x
  | timerWrite o p => exact .timerWrite o p
  | restart o x => exact .restart o x
  | zoneWriteCount o c n => exact .table (Laws.Wire.zoneWriteCount o c n) rfl fun _ => rfl
  | zoneCommit o c => exact .table (Laws.Wire.zoneCommit o c) rfl fun _ => rfl
  | zoneQuery o c t i => exact .table (Laws.Wire.zoneQuery o c t i) rfl fun _ => rfl
  | hoistQuery o h => exact .table (Laws.Wire.hoistQuery o h) rfl fun _ => rfl
  | engage o h => exact .table (Laws.Wire.engage o h) rfl fun _ => rfl
  | park o h => exact .table (Laws.Wire.park o h) rfl fun _ => rfl
  | abort o h => exact .table (Laws.Wire.abort o h) rfl fun _ => rfl
  | resetHoist o h => exact .table (Laws.Wire.resetHoist o h) rfl fun _ => rfl
  | groupWrite o g x => exact .table (Laws.Wire.groupWrite o g x) rfl fun _ => rfl
  | groupStop o g => exact .table (Laws.Wire.groupStop o g) rfl fun _ => rfl
  | allStop o => exact .table (Laws.Wire.allStop o) rfl fun _ => rfl
  | transfer o h k x m => exact .table (Laws.Wire.transfer o h k x m) rfl fun _ => rfl
  | abortTransfer o h => exact .table (Laws.Wire.abortTransfer o h) rfl fun _ => rfl
  | resolve o h x => exact .table (Laws.Wire.resolve o h x) rfl fun _ => rfl
  | blockSlot o l i => exact .table (Laws.Wire.blockSlot o l i) rfl fun _ => rfl
  | unblockSlot o l i => exact .table (Laws.Wire.unblockSlot o l i) rfl fun _ => rfl
  | landingQuery o l => exact .table (Laws.Wire.landingQuery o l) rfl fun _ => rfl
  | removeMass o m => exact .table (Laws.Wire.removeMass o m) rfl fun _ => rfl
  | verify o l => exact .table (Laws.Wire.verify o l) rfl fun _ => rfl
  | releaseScope o c => exact .table (Laws.Wire.releaseScope o c) rfl fun _ => rfl
  | admitScope o c => exact .table (Laws.Wire.admitScope o c) rfl fun _ => rfl
  | massQuery o m => exact .table (Laws.Wire.massQuery o m) rfl fun _ => rfl
  | tallyQuery o => exact .table (Laws.Wire.tallyQuery o) rfl fun _ => rfl
  | prove o h => exact .table (Laws.Wire.prove o h) rfl fun _ => rfl
  | scopeOptions o c x y => exact .table (Laws.Wire.scopeOptions o c x y) rfl fun _ => rfl
  | status o => exact .table (Laws.Wire.status o) rfl fun _ => rfl
  | readRecord o => exact .table (Laws.Wire.readRecord o) rfl fun _ => rfl
  | logControl o x => exact .table (Laws.Wire.logControl o x) rfl fun _ => rfl

end Sys2Proof
end
